-- ==== Sys2Proof/Word.lean ====
section
/-! DEFINITION. The bit-vector types of the YCPU2 (00_scope.md R12, R13; 10_state.md R30, R32). -/

namespace Sys2Proof

/-- An 8-bit octet (R8, R19). -/
abbrev Byte := BitVec 8

/-- A 16-bit word: a general register, a logical address, a program word (R30, R160). -/
abbrev Word := BitVec 16

/-- A 32-bit value: a physical address, a page table entry, one of TU, TS, CL, CC, PF (R32, R59, R101). -/
abbrev DWord := BitVec 32

/-- The 3-bit register field of an instruction; its value is the register number (R30, R161). -/
abbrev Reg := BitVec 3

/-- The 2-bit pair field of an instruction: pair `p` is (R(2p), R(2p+1)) (R32, R167, R180). -/
abbrev Pair := BitVec 2

/-- The low register of a pair, R(2p) (R32, R167). -/
abbrev pairLo (p : Pair) : Reg := p ++ 0#1

/-- The high register of a pair, R(2p+1) (R32, R167). -/
abbrev pairHi (p : Pair) : Reg := p ++ 1#1

end Sys2Proof
end

