-- ==== Sys2Proof/Syntax.lean ====
section
/-! DEFINITION. The instructions of the YCPU2: one constructor per row of spec/opcode_table.json
(30_encoding.md R160, R188). Operands are the fields of the instruction word as the formats R162 to R183 give
them; what an immediate field stands for (R185) is computed in Machine/Operands.lean. -/

namespace Sys2Proof

/-- An instruction. `d`, `m`, `n` are register fields (R161), `p` a pair field (R167, R180), `imm` the
immediate field, `mask` the register mask of STS and STR (R175), `idx` the special register index (R182). -/
inductive Instr where
  -- Math, BP_ALA and BP_ALM (42_math.md R250 to R253, R260 to R263)
  | add (d m n : Reg)
  | adc (d m n : Reg)
  | sub (d m n : Reg)
  | sbc (d m n : Reg)
  | mul (p : Pair) (m n : Reg)
  | mli (p : Pair) (m n : Reg)
  | div (p : Pair) (m n : Reg)
  | dvi (p : Pair) (m n : Reg)
  -- Bit test, BP_BTI (46_bit_test.md R330 to R337)
  | btt (d : Reg) (imm : BitVec 4)
  | bttM (d : Reg) (imm : BitVec 4)
  | btx (d : Reg) (imm : BitVec 4)
  | btxM (d : Reg) (imm : BitVec 4)
  | btc (d : Reg) (imm : BitVec 4)
  | btcM (d : Reg) (imm : BitVec 4)
  | bts (d : Reg) (imm : BitVec 4)
  | btsM (d : Reg) (imm : BitVec 4)
  -- Move immediate, BP_IMM (41_move.md R241, R242)
  | mviL (d : Reg) (imm : BitVec 8)
  | mviH (d : Reg) (imm : BitVec 8)
  -- Load and store, BP_MEM (40_load_store.md R220 to R231)
  | lodBReg (d m n : Reg)
  | lodBImm (d m : Reg) (imm : BitVec 3)
  | lodReg (d m n : Reg)
  | lodImm (d m : Reg) (imm : BitVec 3)
  | lodPc (d : Reg) (imm : BitVec 6)
  | lodSp (d : Reg) (imm : BitVec 6)
  | stoBReg (d m n : Reg)
  | stoBImm (d m : Reg) (imm : BitVec 3)
  | stoReg (d m n : Reg)
  | stoImm (d m : Reg) (imm : BitVec 3)
  | stoPc (d : Reg) (imm : BitVec 6)
  | stoSp (d : Reg) (imm : BitVec 6)
  -- Shift and rotate, BP_SHF (45_shift.md R312 to R318)
  | lslReg (d m : Reg)
  | lslImm (d : Reg) (imm : BitVec 3)
  | rolReg (d m : Reg)
  | rolImm (d : Reg) (imm : BitVec 3)
  | rnlReg (d m : Reg)
  | rnlImm (d : Reg) (imm : BitVec 3)
  | asrReg (d m : Reg)
  | asrImm (d : Reg) (imm : BitVec 3)
  | lsrReg (d m : Reg)
  | lsrImm (d : Reg) (imm : BitVec 3)
  | rorReg (d m : Reg)
  | rorImm (d : Reg) (imm : BitVec 3)
  | rnrReg (d m : Reg)
  | rnrImm (d : Reg) (imm : BitVec 3)
  -- Compare, BP_ALC (44_logic.md R295, R296)
  | cmpReg (m n : Reg)
  | cmpImm (m : Reg) (imm : BitVec 3)
  -- Immediate add and subtract, BP_ALI (42_math.md R254 to R257)
  | addImm (d : Reg) (imm : BitVec 5)
  | adcImm (d : Reg) (imm : BitVec 5)
  | subImm (d : Reg) (imm : BitVec 5)
  | sbcImm (d : Reg) (imm : BitVec 5)
  -- Move, negate, extend, reverse, complement: BP_ALN, BP_REX, BP_REV (R240, R280 to R283, R293, R294)
  | mov (d m : Reg)
  | neg (d m : Reg)
  | rexSb (d : Reg)
  | rexUb (d : Reg)
  | revB (d : Reg)
  | revT (d : Reg)
  | notReg (d m : Reg)
  -- Three-register logic, BP_BIT (44_logic.md R290 to R292)
  | andReg (d m n : Reg)
  | orrReg (d m n : Reg)
  | eorReg (d m n : Reg)
  -- Stack, BP_STK: groups 0, 1 and 2 (47_stack.md R350 to R353)
  | stsLow (mask : BitVec 4)
  | stsHigh (mask : BitVec 4)
  | stsSpecial (mask : BitVec 4)
  | strLow (mask : BitVec 4)
  | strHigh (mask : BitVec 4)
  | strSpecial (mask : BitVec 4)
  -- Processor functions, BP_PRX (R372, R400, R409 to R420)
  | brk (imm : BitVec 6)
  | rts
  | rti
  | swi
  | slp
  | nop
  | sfv
  | cfv
  | sfc
  | cfc
  | sfz
  | cfz
  | sfn
  | cfn
  -- Special register moves, BP_MRS (49_control.md R402, R403)
  | mrs (d : Reg) (idx : BitVec 5)
  | msr (d : Reg) (idx : BitVec 5)
  -- Jumps, BP_JMP (48_jump_branch.md R370, R371)
  | jmp (m : Reg)
  | jsr (m : Reg)
  -- Hardware query, BP_HWQ (49_control.md R408)
  | hwq (imm : BitVec 6)
  -- Page table entry access, BP_PTX (49_control.md R404 to R407)
  | ptlV (p : Pair) (m : Reg)
  | ptlI (p : Pair) (m : Reg)
  | ptsV (p : Pair) (m : Reg)
  | ptsI (p : Pair) (m : Reg)
  -- Stack adjust, BP_STX (47_stack.md R354)
  | stx (imm : BitVec 8)
  -- User-space load and store, BP_MEU (40_load_store.md R233 to R236)
  | louB (d m : Reg)
  | lou (d m : Reg)
  | souB (d m : Reg)
  | sou (d m : Reg)
  -- Branches, BP_BRC and BP_BRA (48_jump_branch.md R380 to R388)
  | bvs (imm : BitVec 9)
  | bvc (imm : BitVec 9)
  | bcs (imm : BitVec 9)
  | bcc (imm : BitVec 9)
  | beq (imm : BitVec 9)
  | bne (imm : BitVec 9)
  | bmi (imm : BitVec 9)
  | bpl (imm : BitVec 9)
  | bra (imm : BitVec 12)
deriving DecidableEq, Repr

end Sys2Proof
end

