-- ==== Sys2Proof/WellFormed.lean ====
section
/-! DEFINITION. What an assembler must check of an instruction (30_encoding.md R193, R198; 47_stack.md R355). Every field
already has the width its format gives it, so every instruction can be encoded; an instruction that fails these checks
still decodes and executes, with the effect its rule gives (log 46). -/

namespace Sys2Proof

/-- The twelve defined HWQ operation indices (49_control.md R408). -/
def hwqDefined (op : BitVec 6) : Bool :=
  op == 0x00#6 || op == 0x01#6 || op == 0x02#6 || op == 0x03#6 || op == 0x10#6 || op == 0x11#6 || op == 0x12#6
    || op == 0x13#6 || op == 0x20#6 || op == 0x21#6 || op == 0x22#6 || op == 0x23#6

/-- A special register index and register field that MRS and MSR accept: the index names a register ($00 to $0C) and a
32-bit register ($08 to $0C) goes with an even register (10_state.md R56, R57). -/
def specialMoveOk (idx : BitVec 5) (d : Reg) : Bool :=
  decide (idx.toNat < 0x0D) && !(decide (0x08 ≤ idx.toNat) && d.getLsbD 0)

/-- What R198 and R355 ask of an assembler: a non-empty STS/STR list, a named special register with an even register
where it has 32 bits, a defined HWQ index. Instructions with no such condition are always well formed. -/
def Instr.wellFormed : Instr → Bool
  | .stsLow mask | .stsHigh mask | .stsSpecial mask => mask != 0#4
  | .strLow mask | .strHigh mask | .strSpecial mask => mask != 0#4
  | .mrs d idx | .msr d idx => specialMoveOk idx d
  | .hwq op => hwqDefined op
  | _ => true

end Sys2Proof
end

