-- ==== Sys2Proof/Decode.lean ====
section
/-! DEFINITION. The decoder, total on every 16-bit word, and after it the encoder (30_encoding.md R160 to R191). -/

namespace Sys2Proof

/-- Why a program word is no instruction: the reserved and unlisted rows of the opcode map (R188, R190, R191). Each
raises UndefFault when executed. -/
inductive Reserved where
  /-- 2800-2BFF and 3800-3BFF: a byte access with a control-register base (R170). -/
  | controlByte
  /-- 4890-489F: BP_REX sub-opcodes 10 and 11 (R173). -/
  | rexCode
  /-- 48B0-48BF: BP_REV sub-opcodes 10 and 11 (R174). -/
  | revCode
  /-- 4900-49FF: listed nowhere (R191, D3, log 20). -/
  | unlisted
  /-- 5030-503F and 5070-507F: register group 11 of STS and STR (R175). -/
  | stackGroup
  /-- 50C4, 50C6, 50C7 and 50D0-50FF: processor functions $04, $06, $07 and $10 to $3F (R177). -/
  | function
  /-- 5310-533F: next to JMP and JSR (R188). -/
  | jumpSpace
  /-- 5500-55FF and 5800-5FFF (R188). -/
  | block5
  /-- 5680-56FF and 5780-57FF: next to LOU and SOU (R171). -/
  | userAccess
  /-- 8000-FFFF: the high bit is set (R188). -/
  | highHalf
deriving DecidableEq, Repr

/-- What the decoder answers. -/
abbrev Decoded := Except Reserved Instr

/-- Bits 2:0 of a word: the field d of most formats (R162). -/
def fieldD (w : Word) : Reg := w.extractLsb' 0 3

/-- Bits 5:3 of a word: the field m of most formats (R162). -/
def fieldM (w : Word) : Reg := w.extractLsb' 3 3

/-- Bits 8:6 of a word: the field n, or imm3 (R162, R170). -/
def fieldN (w : Word) : Reg := w.extractLsb' 6 3

/-- Bits 15:12 = 0000: BP_ALA, BP_ALM, BP_BTI (R162, R167, R168). -/
def decodeMath (w : Word) : Decoded :=
  let d := fieldD w
  let m := fieldM w
  let n := fieldN w
  let p : Pair := w.extractLsb' 1 2
  let i : BitVec 4 := w.extractLsb' 3 4
  match (w.extractLsb' 9 3).toNat with
  | 0 => .ok (.add d m n)
  | 1 => .ok (.adc d m n)
  | 2 => .ok (.sub d m n)
  | 3 => .ok (.sbc d m n)
  | 4 => .ok (if w.getLsbD 0 then .mli p m n else .mul p m n)
  | 5 => .ok (if w.getLsbD 0 then .dvi p m n else .div p m n)
  | 6 => .ok (if w.getLsbD 8 then (if w.getLsbD 7 then .btxM d i else .btx d i)
      else (if w.getLsbD 7 then .bttM d i else .btt d i))
  | _ => .ok (if w.getLsbD 8 then (if w.getLsbD 7 then .btsM d i else .bts d i)
      else (if w.getLsbD 7 then .btcM d i else .btc d i))

/-- Bits 15:12 = 0001: BP_IMM (R169). -/
def decodeMoveImm (w : Word) : Decoded :=
  let d := fieldD w
  let i : BitVec 8 := w.extractLsb' 3 8
  .ok (if w.getLsbD 11 then .mviH d i else .mviL d i)

/-- Bits 15:12 = 0010: the loads of BP_MEM (R170, R186). -/
def decodeLoad (w : Word) : Decoded :=
  let d := fieldD w
  let m := fieldM w
  let n := fieldN w
  let i : BitVec 6 := w.extractLsb' 3 6
  match (w.extractLsb' 9 3).toNat with
  | 0 => .ok (.lodBReg d m n)
  | 1 => .ok (.lodBImm d m n)
  | 2 => .ok (.lodReg d m n)
  | 3 => .ok (.lodImm d m n)
  | 6 => .ok (.lodPc d i)
  | 7 => .ok (.lodSp d i)
  | _ => .error .controlByte

/-- Bits 15:12 = 0011: the stores of BP_MEM (R170, R186). -/
def decodeStore (w : Word) : Decoded :=
  let d := fieldD w
  let m := fieldM w
  let n := fieldN w
  let i : BitVec 6 := w.extractLsb' 3 6
  match (w.extractLsb' 9 3).toNat with
  | 0 => .ok (.stoBReg d m n)
  | 1 => .ok (.stoBImm d m n)
  | 2 => .ok (.stoReg d m n)
  | 3 => .ok (.stoImm d m n)
  | 6 => .ok (.stoPc d i)
  | 7 => .ok (.stoSp d i)
  | _ => .error .controlByte

/-- Bits 15:10 = 010000: BP_SHF and BP_ALC (R172, R164). -/
def decodeShift (w : Word) : Decoded :=
  let d := fieldD w
  let m := fieldM w
  match (w.extractLsb' 6 4).toNat with
  | 0 => .ok (.lslReg d m)
  | 1 => .ok (.lslImm d m)
  | 2 => .ok (.rolReg d m)
  | 3 => .ok (.rolImm d m)
  | 4 => .ok (.rnlReg d m)
  | 5 => .ok (.rnlImm d m)
  | 6 => .ok (.asrReg d m)
  | 7 => .ok (.asrImm d m)
  | 8 => .ok (.lsrReg d m)
  | 9 => .ok (.lsrImm d m)
  | 10 => .ok (.rorReg d m)
  | 11 => .ok (.rorImm d m)
  | 12 => .ok (.rnrReg d m)
  | 13 => .ok (.rnrImm d m)
  | 14 => .ok (.cmpReg d m)
  | _ => .ok (.cmpImm d m)

/-- Bits 15:8 = 01001000: BP_ALN, BP_REX, BP_REV (R166, R173, R174). -/
def decodeTwoReg (w : Word) : Decoded :=
  let d := fieldD w
  let m := fieldM w
  match (w.extractLsb' 6 2).toNat with
  | 0 => .ok (.mov d m)
  | 1 => .ok (.neg d m)
  | 2 =>
    match m.toNat with
    | 0 => .ok (.rexSb d)
    | 1 => .ok (.rexUb d)
    | 2 | 3 => .error .rexCode
    | 4 => .ok (.revB d)
    | 5 => .ok (.revT d)
    | _ => .error .revCode
  | _ => .ok (.notReg d m)

/-- Bits 15:12 = 0100: shifts and compares, BP_ALI, BP_ALN and its neighbours, BP_BIT (R163, R165). -/
def decodeAlu (w : Word) : Decoded :=
  let d := fieldD w
  let m := fieldM w
  let n := fieldN w
  let i : BitVec 5 := w.extractLsb' 3 5
  match (w.extractLsb' 8 4).toNat with
  | 0 | 1 | 2 | 3 => decodeShift w
  | 4 => .ok (.addImm d i)
  | 5 => .ok (.adcImm d i)
  | 6 => .ok (.subImm d i)
  | 7 => .ok (.sbcImm d i)
  | 8 => decodeTwoReg w
  | 9 => .error .unlisted
  | 10 | 11 => .ok (.andReg d m n)
  | 12 | 13 => .ok (.orrReg d m n)
  | _ => .ok (.eorReg d m n)

/-- Bits 15:6 = 0101000011: the processor functions of BP_PRX (R177). -/
def decodeFunction (w : Word) : Decoded :=
  match (w.extractLsb' 0 6).toNat with
  | 0x00 => .ok .rts
  | 0x01 => .ok .rti
  | 0x02 => .ok .swi
  | 0x03 => .ok .slp
  | 0x05 => .ok .nop
  | 0x08 => .ok .sfv
  | 0x09 => .ok .cfv
  | 0x0A => .ok .sfc
  | 0x0B => .ok .cfc
  | 0x0C => .ok .sfz
  | 0x0D => .ok .cfz
  | 0x0E => .ok .sfn
  | 0x0F => .ok .cfn
  | _ => .error .function

/-- Bits 15:8 = 01010000: BP_STK and BP_PRX (R175, R177). -/
def decodeStackFunction (w : Word) : Decoded :=
  let r : BitVec 4 := w.extractLsb' 0 4
  match (w.extractLsb' 4 4).toNat with
  | 0 => .ok (.stsLow r)
  | 1 => .ok (.stsHigh r)
  | 2 => .ok (.stsSpecial r)
  | 4 => .ok (.strLow r)
  | 5 => .ok (.strHigh r)
  | 6 => .ok (.strSpecial r)
  | 3 | 7 => .error .stackGroup
  | 8 | 9 | 10 | 11 => .ok (.brk (w.extractLsb' 0 6))
  | _ => decodeFunction w

/-- Bits 15:8 = 01010011: BP_JMP, BP_HWQ, BP_PTX (R178, R179, R180). -/
def decodeJumpQuery (w : Word) : Decoded :=
  let d := fieldD w
  let m : Reg := w.extractLsb' 2 3
  let p : Pair := w.extractLsb' 0 2
  match (w.extractLsb' 5 3).toNat with
  | 0 =>
    if w.getLsbD 4 then .error .jumpSpace
    else .ok (if w.getLsbD 3 then .jsr d else .jmp d)
  | 1 => .error .jumpSpace
  | 2 | 3 => .ok (.hwq (w.extractLsb' 0 6))
  | 4 => .ok (.ptlV p m)
  | 5 => .ok (.ptlI p m)
  | 6 => .ok (.ptsV p m)
  | _ => .ok (.ptsI p m)

/-- Bits 15:12 = 0101: stack, processor control, user-space access (R171, R175 to R180, R182). -/
def decodeControl (w : Word) : Decoded :=
  let d := fieldD w
  let m := fieldM w
  let s : BitVec 5 := w.extractLsb' 3 5
  match (w.extractLsb' 8 4).toNat with
  | 0 => decodeStackFunction w
  | 1 => .ok (.mrs d s)
  | 2 => .ok (.msr d s)
  | 3 => decodeJumpQuery w
  | 4 => .ok (.stx (w.extractLsb' 0 8))
  | 6 => if w.getLsbD 7 then .error .userAccess else .ok (if w.getLsbD 6 then .lou d m else .louB d m)
  | 7 => if w.getLsbD 7 then .error .userAccess else .ok (if w.getLsbD 6 then .sou d m else .souB d m)
  | _ => .error .block5

/-- Bits 15:12 = 0110: BP_BRC (R181). -/
def decodeBranch (w : Word) : Decoded :=
  let i : BitVec 9 := w.extractLsb' 0 9
  match (w.extractLsb' 9 3).toNat with
  | 0 => .ok (.bvs i)
  | 1 => .ok (.bvc i)
  | 2 => .ok (.bcs i)
  | 3 => .ok (.bcc i)
  | 4 => .ok (.beq i)
  | 5 => .ok (.bne i)
  | 6 => .ok (.bmi i)
  | _ => .ok (.bpl i)

/-- The instruction a program word is, or the reserved row it falls in (R187, R188). -/
def decode (w : Word) : Decoded :=
  match (w.extractLsb' 12 4).toNat with
  | 0 => decodeMath w
  | 1 => decodeMoveImm w
  | 2 => decodeLoad w
  | 3 => decodeStore w
  | 4 => decodeAlu w
  | 5 => decodeControl w
  | 6 => decodeBranch w
  | 7 => .ok (.bra (w.extractLsb' 0 12))
  | _ => .error .highHalf

/-- The program word of two bytes as memory holds them, low byte first (R100, R160). -/
def programWord (low high : Byte) : Word := high ++ low

/-- The instruction the decoder reads from the table's numbering of a row's bits: the low 16 bits of `w`, stored as the
hardware stores a program word and read back. A row has 16 bits (R160). -/
def decodeTableWord (nbits w : Nat) : Option Instr :=
  if nbits ≤ 16 then
    let v : Word := BitVec.ofNat 16 (w % 2 ^ nbits)
    match decode (programWord (v.extractLsb' 0 8) (v.extractLsb' 8 8)) with
    | .ok i => some i
    | .error _ => none
  else none

/-- The word of an instruction, written from the format tables R162 to R183: fixed bits and fields from bit 15 down. -/
def encode : Instr → Word
  | .add d m n => 0b0000000#7 ++ n ++ m ++ d
  | .adc d m n => 0b0000001#7 ++ n ++ m ++ d
  | .sub d m n => 0b0000010#7 ++ n ++ m ++ d
  | .sbc d m n => 0b0000011#7 ++ n ++ m ++ d
  | .mul p m n => 0b0000100#7 ++ n ++ m ++ p ++ 0#1
  | .mli p m n => 0b0000100#7 ++ n ++ m ++ p ++ 1#1
  | .div p m n => 0b0000101#7 ++ n ++ m ++ p ++ 0#1
  | .dvi p m n => 0b0000101#7 ++ n ++ m ++ p ++ 1#1
  | .btt d i => 0b00001100#8 ++ 0#1 ++ i ++ d
  | .bttM d i => 0b00001100#8 ++ 1#1 ++ i ++ d
  | .btx d i => 0b00001101#8 ++ 0#1 ++ i ++ d
  | .btxM d i => 0b00001101#8 ++ 1#1 ++ i ++ d
  | .btc d i => 0b00001110#8 ++ 0#1 ++ i ++ d
  | .btcM d i => 0b00001110#8 ++ 1#1 ++ i ++ d
  | .bts d i => 0b00001111#8 ++ 0#1 ++ i ++ d
  | .btsM d i => 0b00001111#8 ++ 1#1 ++ i ++ d
  | .mviL d i => 0b0001#4 ++ 0#1 ++ i ++ d
  | .mviH d i => 0b0001#4 ++ 1#1 ++ i ++ d
  | .lodBReg d m n => 0b0010000#7 ++ n ++ m ++ d
  | .lodBImm d m i => 0b0010001#7 ++ i ++ m ++ d
  | .lodReg d m n => 0b0010010#7 ++ n ++ m ++ d
  | .lodImm d m i => 0b0010011#7 ++ i ++ m ++ d
  | .lodPc d i => 0b0010110#7 ++ i ++ d
  | .lodSp d i => 0b0010111#7 ++ i ++ d
  | .stoBReg d m n => 0b0011000#7 ++ n ++ m ++ d
  | .stoBImm d m i => 0b0011001#7 ++ i ++ m ++ d
  | .stoReg d m n => 0b0011010#7 ++ n ++ m ++ d
  | .stoImm d m i => 0b0011011#7 ++ i ++ m ++ d
  | .stoPc d i => 0b0011110#7 ++ i ++ d
  | .stoSp d i => 0b0011111#7 ++ i ++ d
  | .lslReg d m => 0b010000000#9 ++ 0#1 ++ m ++ d
  | .lslImm d i => 0b010000000#9 ++ 1#1 ++ i ++ d
  | .rolReg d m => 0b010000001#9 ++ 0#1 ++ m ++ d
  | .rolImm d i => 0b010000001#9 ++ 1#1 ++ i ++ d
  | .rnlReg d m => 0b010000010#9 ++ 0#1 ++ m ++ d
  | .rnlImm d i => 0b010000010#9 ++ 1#1 ++ i ++ d
  | .asrReg d m => 0b010000011#9 ++ 0#1 ++ m ++ d
  | .asrImm d i => 0b010000011#9 ++ 1#1 ++ i ++ d
  | .lsrReg d m => 0b010000100#9 ++ 0#1 ++ m ++ d
  | .lsrImm d i => 0b010000100#9 ++ 1#1 ++ i ++ d
  | .rorReg d m => 0b010000101#9 ++ 0#1 ++ m ++ d
  | .rorImm d i => 0b010000101#9 ++ 1#1 ++ i ++ d
  | .rnrReg d m => 0b010000110#9 ++ 0#1 ++ m ++ d
  | .rnrImm d i => 0b010000110#9 ++ 1#1 ++ i ++ d
  | .cmpReg m n => 0b010000111#9 ++ 0#1 ++ n ++ m
  | .cmpImm m i => 0b010000111#9 ++ 1#1 ++ i ++ m
  | .addImm d i => 0b01000100#8 ++ i ++ d
  | .adcImm d i => 0b01000101#8 ++ i ++ d
  | .subImm d i => 0b01000110#8 ++ i ++ d
  | .sbcImm d i => 0b01000111#8 ++ i ++ d
  | .mov d m => 0b0100100000#10 ++ m ++ d
  | .neg d m => 0b0100100001#10 ++ m ++ d
  | .rexSb d => 0b01001000100#11 ++ 0b00#2 ++ d
  | .rexUb d => 0b01001000100#11 ++ 0b01#2 ++ d
  | .revB d => 0b01001000101#11 ++ 0b00#2 ++ d
  | .revT d => 0b01001000101#11 ++ 0b01#2 ++ d
  | .notReg d m => 0b0100100011#10 ++ m ++ d
  | .andReg d m n => 0b0100101#7 ++ n ++ m ++ d
  | .orrReg d m n => 0b0100110#7 ++ n ++ m ++ d
  | .eorReg d m n => 0b0100111#7 ++ n ++ m ++ d
  | .stsLow r => 0b010100000#9 ++ 0#1 ++ 0b00#2 ++ r
  | .stsHigh r => 0b010100000#9 ++ 0#1 ++ 0b01#2 ++ r
  | .stsSpecial r => 0b010100000#9 ++ 0#1 ++ 0b10#2 ++ r
  | .strLow r => 0b010100000#9 ++ 1#1 ++ 0b00#2 ++ r
  | .strHigh r => 0b010100000#9 ++ 1#1 ++ 0b01#2 ++ r
  | .strSpecial r => 0b010100000#9 ++ 1#1 ++ 0b10#2 ++ r
  | .brk i => 0b0101000010#10 ++ i
  | .rts => 0b0101000011#10 ++ 0x00#6
  | .rti => 0b0101000011#10 ++ 0x01#6
  | .swi => 0b0101000011#10 ++ 0x02#6
  | .slp => 0b0101000011#10 ++ 0x03#6
  | .nop => 0b0101000011#10 ++ 0x05#6
  | .sfv => 0b0101000011#10 ++ 0x08#6
  | .cfv => 0b0101000011#10 ++ 0x09#6
  | .sfc => 0b0101000011#10 ++ 0x0A#6
  | .cfc => 0b0101000011#10 ++ 0x0B#6
  | .sfz => 0b0101000011#10 ++ 0x0C#6
  | .cfz => 0b0101000011#10 ++ 0x0D#6
  | .sfn => 0b0101000011#10 ++ 0x0E#6
  | .cfn => 0b0101000011#10 ++ 0x0F#6
  | .mrs d s => 0b01010001#8 ++ s ++ d
  | .msr d s => 0b01010010#8 ++ s ++ d
  | .jmp m => 0b010100110000#12 ++ 0#1 ++ m
  | .jsr m => 0b010100110000#12 ++ 1#1 ++ m
  | .hwq i => 0b0101001101#10 ++ i
  | .ptlV p m => 0b010100111#9 ++ 0#1 ++ 0#1 ++ m ++ p
  | .ptlI p m => 0b010100111#9 ++ 0#1 ++ 1#1 ++ m ++ p
  | .ptsV p m => 0b010100111#9 ++ 1#1 ++ 0#1 ++ m ++ p
  | .ptsI p m => 0b010100111#9 ++ 1#1 ++ 1#1 ++ m ++ p
  | .stx i => 0b01010100#8 ++ i
  | .louB d m => 0b0101011000#10 ++ m ++ d
  | .lou d m => 0b0101011001#10 ++ m ++ d
  | .souB d m => 0b0101011100#10 ++ m ++ d
  | .sou d m => 0b0101011101#10 ++ m ++ d
  | .bvs i => 0b0110#4 ++ 0b000#3 ++ i
  | .bvc i => 0b0110#4 ++ 0b001#3 ++ i
  | .bcs i => 0b0110#4 ++ 0b010#3 ++ i
  | .bcc i => 0b0110#4 ++ 0b011#3 ++ i
  | .beq i => 0b0110#4 ++ 0b100#3 ++ i
  | .bne i => 0b0110#4 ++ 0b101#3 ++ i
  | .bmi i => 0b0110#4 ++ 0b110#3 ++ i
  | .bpl i => 0b0110#4 ++ 0b111#3 ++ i
  | .bra i => 0b0111#4 ++ i

end Sys2Proof
end

