-- ==== Sys2Proof/Config.lean ====
section
/-! DEFINITION. What a platform fixes (00_scope.md R9) and the free values: constants with no body, so that no
proof can use a value of theirs (93_implementation_defined.md, treatment "any value"). -/

namespace Sys2Proof

/-- A range of physical addresses: `size` bytes from `base` (R9 PhysMap). -/
structure Region where
  base : Nat
  size : Nat
deriving DecidableEq, Repr

/-- What HWQ $02 reports of a slot, and the window size codes the slot accepts: Ident(k) and Sizes(k)
(60_exceptions.md R523, R526; 92_eei_decisions.md open parameters). -/
structure SlotInfo where
  kind : Word
  manufacturer : Word
  device : Word
  flags : Word
  sizes : List (BitVec 4)
deriving DecidableEq, Repr, Inhabited

/-- The platform parameters of R9: PhysMap (`lowRam`, `lowRom` for the low 64 KiB, `highRam`, `highRom` above it),
RAM_BYTES, ROM_BYTES, the slots, NVRAM_BYTES and RTC_PRESENT. Slot 0 is the SBC and is always present (R520);
`slots` lists slots 1, 2, … with `none` for an empty one. The spec does not tie the totals RAM_BYTES and ROM_BYTES to the
RAM and ROM of PhysMap, and the model leaves them independent (DESIGN CHOICE, log 52); it also lets RAM or ROM lie above
64 KiB where the low range is not full (DESIGN CHOICE, log 53). -/
structure Platform where
  /-- Bytes of RAM from physical $0000; at most the first 32 KiB count (20_memory.md R113). -/
  lowRam : Nat
  /-- Bytes of ROM below physical $10000; at most the last 16 KiB count (R113). -/
  lowRom : Nat
  /-- RAM at physical $10000 and above. -/
  highRam : List Region
  /-- ROM at physical $10000 and above, where it is not RAM. -/
  highRom : List Region
  /-- RAM_BYTES, or absent (R522): what HWQ $01 reports, no bound on the RAM above (log 52). -/
  ramBytes : Option DWord
  /-- ROM_BYTES, or absent (R522): what HWQ $01 reports, no bound on the ROM above (log 52). -/
  romBytes : Option DWord
  /-- Slot 0 (R520, R523). -/
  sbcInfo : SlotInfo
  /-- Slots 1 and up (R523). -/
  slots : List (Option SlotInfo)
  /-- NVRAM_BYTES, or absent (R530). -/
  nvramBytes : Option DWord
  /-- RTC_PRESENT (R529). -/
  rtcPresent : Bool
deriving DecidableEq, Repr

/-- The three answers of a device to HWQ $03 (R524). -/
inductive Answer where
  | ack
  | wait
  | error
deriving DecidableEq, Repr, Inhabited

/-- A device address window: the base address without its four low zero bits, and the size code S (R525, R526). -/
structure Window where
  base : BitVec 28
  size : BitVec 4
deriving DecidableEq, Repr, Inhabited

namespace Config

/-- Free words, one for each value of the draw counter: FA after a fault other than PageFault (U6), the DVI remainder
(U5), HWQ outputs on failure (U7), the time of an absent RTC (U9), registers after a Reset step (U10). Log 12. -/
opaque freeWord : Nat → Word

/-- The byte a device answers to a read in its window (20_memory.md R109, R115: environment). Log 15. -/
opaque deviceByte : Nat → Byte

/-- The answer of a present device to an HWQ $03 message (R524: environment). Log 16. -/
opaque deviceAnswer : Nat → Answer

/-- RAM contents after a Reset step, as address and byte pairs (R561: unspecified). Log 33. -/
opaque freeRam : Nat → List (Nat × Byte)

/-- SBC windows after a Reset step, as slot and window pairs (R561: unspecified). Log 33, log 47. -/
opaque freeWindows : Nat → List (Nat × Window)

/-- SBC interrupt configurations after a Reset step, as slot and configuration pairs (R561: unspecified). Log 33. -/
opaque freeConfigs : Nat → List (Nat × BitVec 4)

/-- CYCLES(ins) less one, for an instruction other than NOP (R9, R585, D20: an open positive integer). Log 17. -/
opaque extraCycles : Instr → Nat

/-- The cycles, less one, of a step that executes no instruction: asleep, an entry at a boundary, a fetch that
faults, a reserved word (D20: an open positive amount). Log 17. -/
opaque idleCycles : Nat → Nat

/-- Open platform parameters (R9, R113): bytes of RAM from physical $0000 up. Log 10. -/
opaque lowRam : Nat
/-- Bytes of ROM below physical $10000 (R113). Log 10. -/
opaque lowRom : Nat
/-- RAM above the low 64 KiB. Log 10. -/
opaque highRam : List Region
/-- See `highRam`. -/
opaque highRom : List Region
/-- RAM_BYTES (R522). Log 10. -/
opaque ramBytes : Option DWord
/-- ROM_BYTES (R522). Log 10. -/
opaque romBytes : Option DWord
/-- Identification of slot 0, the SBC itself (R523). Log 10. -/
opaque sbcInfo : SlotInfo
/-- Slots 1 and up (R521, R523). Log 10. -/
opaque slots : List (Option SlotInfo)
/-- NVRAM_BYTES (R530). Log 10. -/
opaque nvramBytes : Option DWord
/-- RTC_PRESENT (R529). Log 10. -/
opaque rtcPresent : Bool

/-- The platform of State.reset: every parameter open (R9), within what R113 allows of the low 64 KiB (see
`Platform.lowRam`, `Platform.lowRom`); SLOTS is at most 65535 (92_eei_decisions.md). Neither the totals (log 52) nor the
memory above 64 KiB (log 53) is tied to the low extents: the model's choices. Log 10. -/
def platform : Platform where
  lowRam := lowRam
  lowRom := lowRom
  highRam := highRam
  highRom := highRom
  ramBytes := ramBytes
  romBytes := romBytes
  sbcInfo := sbcInfo
  slots := slots.take 65534
  nvramBytes := nvramBytes
  rtcPresent := rtcPresent

/-- CYCLES(ins): positive, and 1 for NOP (R585, D20). Log 17. -/
def cycles (i : Instr) : Nat := if i = .nop then 1 else 1 + extraCycles i

end Config

end Sys2Proof
end

