-- ==== Sys2Proof/Machine/Memory.lean ====
section
/-! DEFINITION. Sparse contents by address: a list of pairs in one canonical form, so that equal contents are equal
data. RAM, ROM and the NVRAM are such lists of (address, byte) pairs; the SBC's per-slot settings are such lists by slot
number. -/

namespace Sys2Proof.Machine

/-- What the list holds at `a`: the listed value, or `dflt` where nothing is listed. -/
def sparseGet {α : Type} (dflt : α) : List (Nat × α) → Nat → α
  | [], _ => dflt
  | (k, v) :: rest, a => if a = k then v else sparseGet dflt rest a

/-- The list with `v` listed at `a`, in address order. -/
def sparseInsert {α : Type} : List (Nat × α) → Nat → α → List (Nat × α)
  | [], a, v => [(a, v)]
  | (k, w) :: rest, a, v =>
    if a < k then (a, v) :: (k, w) :: rest
    else if a = k then (a, v) :: rest
    else (k, w) :: sparseInsert rest a v

/-- The list with nothing listed at `a`. -/
def sparseErase {α : Type} : List (Nat × α) → Nat → List (Nat × α)
  | [], _ => []
  | (k, w) :: rest, a => if a = k then rest else (k, w) :: sparseErase rest a

/-- The list that holds `v` at `a` and is unchanged elsewhere; writing the default removes the entry. -/
def sparseSet {α : Type} [DecidableEq α] (dflt : α) (m : List (Nat × α)) (a : Nat) (v : α) : List (Nat × α) :=
  if v = dflt then sparseErase m a else sparseInsert m a v

/-- The canonical form from address `low` up: addresses strictly rising, no entry equal to the default. -/
def sparseWfFrom {α : Type} [DecidableEq α] (dflt : α) (low : Nat) : List (Nat × α) → Bool
  | [] => true
  | (k, v) :: rest => decide (low ≤ k) && decide (v ≠ dflt) && sparseWfFrom dflt (k + 1) rest

/-- The canonical form. -/
def sparseWf {α : Type} [DecidableEq α] (dflt : α) (m : List (Nat × α)) : Bool := sparseWfFrom dflt 0 m

/-- Bytes by address (20_memory.md R108, 60_exceptions.md R531). -/
abbrev Memory := List Host.Cell

/-- What a byte that is not listed reads as: zero (log 1, log 8, log 9). -/
def unlistedByte : Byte := 0#8

/-- The byte held at an address. -/
def Memory.read (m : Memory) (a : Nat) : Byte := sparseGet unlistedByte m a

/-- The contents with one byte replaced. -/
def Memory.write (m : Memory) (a : Nat) (v : Byte) : Memory := sparseSet unlistedByte m a v

/-- The canonical form of byte contents: addresses strictly rising, no entry that reads as an unlisted byte. -/
def Memory.wf (m : Memory) : Bool := sparseWf unlistedByte m

end Sys2Proof.Machine
end

