-- ==== Sys2Proof/Machine/State.lean ====
section
/-! DEFINITION. The state of the machine: every piece of state the spec gives it (10_state.md; 60_exceptions.md R533;
70_reset_and_hazards.md R561), the platform parameters, the environment's inputs and the free-value counter. -/

namespace Sys2Proof.Machine

/-- The two modes, PS.P = 00 and PS.P = 01 (60_exceptions.md R540). PS.P = 10 and 11 are no states of the model
(10_state.md R40, U3, log 13). -/
inductive Mode where
  | user
  | supervisor
deriving DecidableEq, Repr

/-- PS by its fields (10_state.md R38). Bits 11:7 have no storage and read zero (R40). -/
structure Status where
  /-- PS.P, bits 15:14. -/
  mode : Mode
  /-- PS.M, bit 13: the MMU is on. -/
  mmu : Bool
  /-- PS.I, bit 12: maskable interrupts are enabled. -/
  ie : Bool
  /-- PS.L, bits 6:4: the current interrupt level. -/
  level : BitVec 3
  /-- Bit 3. -/
  n : Bool
  /-- Bit 2. -/
  z : Bool
  /-- Bit 1. -/
  c : Bool
  /-- Bit 0. -/
  v : Bool
deriving DecidableEq, Repr

/-- IM by its two bits (10_state.md R48); bits 15:2 have no storage and read zero. -/
structure IntMask where
  /-- IM.H, bit 1. -/
  hardware : Bool
  /-- IM.C, bit 0. -/
  clock : Bool
deriving DecidableEq, Repr

/-- The time of the real-time clock (60_exceptions.md R536): year 0 is 1900, month 0 January, day 0 the first. -/
structure RtcTime where
  year : BitVec 8
  month : Fin 12
  day : Fin 31
  hour : Fin 24
  minute : Fin 60
  second : Fin 60
deriving DecidableEq, Repr

/-- The variable state of the System Bus Controller (60_exceptions.md R533). Slots not listed hold no window, the
configuration 0 (EN = 0, PRI = 0) and a request line that is not asserted. -/
structure Sbc where
  /-- window[k] by slot (R525, R526). -/
  windows : List (Nat × Window)
  /-- cfg[k] by slot: bit 0 is EN, bits 3:1 are PRI (R527, R528). -/
  configs : List (Nat × BitVec 4)
  /-- irq[k] by slot: driven by the device (R502). -/
  irq : List (Nat × Bool)
  /-- The NVRAM's bytes by offset (R531). -/
  nvram : Memory
  /-- The NVRAM is write-protected: a condition of the environment (R531, log 49). -/
  nvramProtected : Bool
  /-- Writes to the NVRAM fail: a condition of the environment (R531, log 49). -/
  nvramFailing : Bool
  /-- The RTC's time, driven by the environment (R533). -/
  rtc : RtcTime
deriving DecidableEq, Repr

/-- What the environment does before an instruction boundary (60_exceptions.md R502, R504, R505, R531, R533;
log 11). -/
inductive Event where
  /-- The RESET line takes this level. -/
  | resetLine (high : Bool)
  /-- The DEBUG line takes this level. -/
  | debugLine (high : Bool)
  /-- The device of a slot asserts or withdraws its interrupt request. -/
  | irqLine (slot : Nat) (asserted : Bool)
  /-- The clock shows this time. -/
  | clock (time : RtcTime)
  /-- The NVRAM becomes write-protected or writable. -/
  | nvramProtect (on : Bool)
  /-- Writes to the NVRAM begin or cease to fail. -/
  | nvramFail (on : Bool)
deriving DecidableEq, Repr

/-- The whole machine. -/
structure State where
  /-- R0 to R7 (10_state.md R30). -/
  regs : Vector Word 8
  /-- PC (R34). -/
  pc : Word
  /-- PS (R38). -/
  ps : Status
  /-- SU, the user stack pointer (R43). -/
  su : Word
  /-- SS, the supervisor stack pointer (R44). -/
  ss : Word
  /-- VB, the vector table base (R47). -/
  vb : Word
  /-- IM, the interrupt mask (R48). -/
  im : IntMask
  /-- IC, the interrupt cause (R49). -/
  ic : Word
  /-- FA, the fault address (R50). -/
  fa : Word
  /-- TU, the user page table base (R51). -/
  tu : DWord
  /-- TS, the supervisor page table base (R52). -/
  ts : DWord
  /-- CL, the clock counter (R53). -/
  cl : DWord
  /-- CC, the clock compare register (R54). -/
  cc : DWord
  /-- The sleep state (R62). -/
  asleep : Bool
  /-- ResetPending (R63). -/
  resetPending : Bool
  /-- A DebugQuery request is latched (60_exceptions.md R504). -/
  debugLatch : Bool
  /-- The level of the RESET line (R505). -/
  resetLine : Bool
  /-- The level of the DEBUG line (R504). -/
  debugLine : Bool
  /-- The bytes of RAM by physical address (20_memory.md R108). -/
  ram : Memory
  /-- The bytes of ROM by physical address (R108); no instruction writes them. -/
  rom : Memory
  /-- The System Bus Controller (60_exceptions.md R533). -/
  sbc : Sbc
  /-- The platform parameters (00_scope.md R9); no step changes them. -/
  platform : Platform
  /-- The model's own: what the environment does before each coming boundary (log 11). -/
  inputs : List (List Event)
  /-- The model's own: how many free values have been drawn (log 12). -/
  draws : Nat
deriving DecidableEq, Repr

/-- Why the model stops with a fault: never. Every exception the spec describes is a next state, no physical address
lies outside the machine, and no register read is forbidden, so the type has no constructor. -/
inductive Fault where
deriving DecidableEq, Repr

/-- Why the model gives a step no next state. -/
inductive Refusal where
  /-- An instruction the model gives no meaning; safe. No arm of this model raises it. -/
  | notModelled (mnemonic : String)
  /-- A supervisor MSR PS, STR with PS, or RTI whose PS value has bit 15 set, that is PS.P = 10 or 11: "reserved", no
  successor state (93_implementation_defined.md U3, 10_state.md R40). Raised by execMsr, execStrSpecial and execRti;
  safe. -/
  | reservedMode
  /-- An HWQ $11 whose new window would overlap another window, RAM or ROM: no successor state
  (93_implementation_defined.md U8, 60_exceptions.md R526). Raised by execHwq; safe. -/
  | overlappingWindows
deriving DecidableEq, Repr

/-- The machine right after Reset (70_reset_and_hazards.md R560, R561): PS = $4000, VB = $FFE0, IC = $0000, nothing
pending, and PC the word at physical $0000FFE0, which reads zero because nothing is listed in ROM (log 9). Every item
the spec calls unspecified is zero here (logs 2 to 8); a Reset taken by a step leaves those items free instead
(log 33). -/
def State.reset : State where
  regs := Vector.replicate 8 0#16
  pc := 0#16
  ps := { mode := .supervisor, mmu := false, ie := false, level := 0#3, n := false, z := false, c := false, v := false }
  su := 0#16
  ss := 0#16
  vb := 0xFFE0#16
  im := { hardware := false, clock := false }
  ic := 0#16
  fa := 0#16
  tu := 0#32
  ts := 0#32
  cl := 0#32
  cc := 0#32
  asleep := false
  resetPending := false
  debugLatch := false
  resetLine := false
  debugLine := false
  ram := []
  rom := []
  sbc :=
    { windows := [], configs := [], irq := [], nvram := [], nvramProtected := false, nvramFailing := false
      rtc := { year := 0#8, month := 0, day := 0, hour := 0, minute := 0, second := 0 } }
  platform := Config.platform
  inputs := []
  draws := 0

end Sys2Proof.Machine
end

