-- ==== Sys2Proof/Machine/Status.lean ====
section
/-! DEFINITION. PS and IM as the words software reads and writes (10_state.md R38 to R40, R48). -/

namespace Sys2Proof.Machine

/-- PS.P (R38): 00 user, 01 supervisor. -/
def Mode.bits : Mode → BitVec 2
  | .user => 0b00#2
  | .supervisor => 0b01#2

/-- PS as a word: `PPMI .... .LLL NZCV` with bits 11:7 zero (R38, R40). -/
def Status.toWord (p : Status) : Word :=
  p.mode.bits ++ BitVec.ofBool p.mmu ++ BitVec.ofBool p.ie ++ 0#5 ++ p.level
    ++ BitVec.ofBool p.n ++ BitVec.ofBool p.z ++ BitVec.ofBool p.c ++ BitVec.ofBool p.v

/-- A supervisor write of PS: all implemented fields from the word, bits 11:7 ignored (R39, R40); no status where bit
15 is set, because PS.P = 10 and 11 are reserved (U3, log 13). -/
def Status.ofWord? (w : Word) : Option Status :=
  if w.getLsbD 15 then none
  else some
    { mode := if w.getLsbD 14 then .supervisor else .user
      mmu := w.getLsbD 13
      ie := w.getLsbD 12
      level := w.extractLsb' 4 3
      n := w.getLsbD 3
      z := w.getLsbD 2
      c := w.getLsbD 1
      v := w.getLsbD 0 }

/-- What a read of PS gives in user mode: the flags, all other bits zero (R39). -/
def Status.userWord (p : Status) : Word := p.toWord &&& 0x000F#16

/-- What a read of PS gives in the current mode (R39). -/
def Status.readable (p : Status) : Word :=
  match p.mode with
  | .user => p.userWord
  | .supervisor => p.toWord

/-- What a write of PS does in user mode: only the flags are written (R39). -/
def Status.withFlagsOf (p : Status) (w : Word) : Status :=
  { p with n := w.getLsbD 3, z := w.getLsbD 2, c := w.getLsbD 1, v := w.getLsbD 0 }

/-- A write of PS in the current mode (R39): none where the model has no state for the value (U3). -/
def Status.write? (p : Status) (w : Word) : Option Status :=
  match p.mode with
  | .user => some (p.withFlagsOf w)
  | .supervisor => Status.ofWord? w

/-- IM as a word: bit 1 = H, bit 0 = C, bits 15:2 zero (R48). -/
def IntMask.toWord (m : IntMask) : Word := 0#14 ++ BitVec.ofBool m.hardware ++ BitVec.ofBool m.clock

/-- A write of IM: bits 1:0 from the word (R48). -/
def IntMask.ofWord (w : Word) : IntMask := { hardware := w.getLsbD 1, clock := w.getLsbD 0 }

/-- PF, a constant of this hardware (R55). -/
def pfValue : DWord := 0x00000001#32

end Sys2Proof.Machine
end

