-- ==== Sys2Proof/Machine/Bus.lean ====
section
/-! DEFINITION. The physical address space and the devices behind it (20_memory.md R108 to R115; 60_exceptions.md
R502, R525, R526): what a physical byte address is, reads and writes of physical memory, windows and slots. -/

namespace Sys2Proof

/-- The platform has the region's bytes at `a` (00_scope.md R9 PhysMap). -/
def Region.covers (r : Region) (a : Nat) : Bool := decide (r.base ≤ a) && decide (a < r.base + r.size)

/-- Bytes of RAM from physical $0000: at most the first 32 KiB (R113). -/
def Platform.lowRamEnd (p : Platform) : Nat := min p.lowRam 0x8000

/-- The first byte of ROM below physical $10000: at most the last 16 KiB (R113). -/
def Platform.lowRomStart (p : Platform) : Nat := 0x10000 - min p.lowRom 0x4000

/-- The physical byte is RAM (R108, R113). -/
def Platform.isRam (p : Platform) (a : Nat) : Bool :=
  if a < 0x10000 then decide (a < 0x8000) && decide (a < p.lowRam) else p.highRam.any (Region.covers · a)

/-- The physical byte is ROM (R108, R113). Where a platform's description claims both, it is RAM. -/
def Platform.isRom (p : Platform) (a : Nat) : Bool :=
  if p.isRam a then false
  else if a < 0x10000 then decide (p.lowRomStart ≤ a) else p.highRom.any (Region.covers · a)

/-- The platform with the word at `a` connected, where R113 puts RAM or ROM in the low 64 KiB: the RAM or ROM there reaches
at least that word. Nothing changes where it already does, and for other addresses. (The sums are maxima, written so that
they evaluate on an open parameter.) -/
def Platform.connectWord (p : Platform) (a : Nat) : Platform :=
  if a < 0x8000 then { p with lowRam := p.lowRam - (a + 2) + (a + 2) }
  else if 0xC000 ≤ a ∧ a < 0x10000 then { p with lowRom := p.lowRom - (0x10000 - a) + (0x10000 - a) }
  else p

/-- SLOTS (R521): the SBC's own slot 0 and those the platform lists. -/
def Platform.slotCount (p : Platform) : Nat := 1 + p.slots.length

/-- What is in slot `k`: `none` for an empty or absent slot (60_exceptions.md R520, R523). -/
def Platform.slotInfo (p : Platform) (k : Nat) : Option SlotInfo :=
  match k with
  | 0 => some p.sbcInfo
  | j + 1 => (p.slots[j]?).join

/-- present(k) (R520): k < SLOTS and a device occupies slot k; slot 0 is always present. -/
def Platform.present (p : Platform) (k : Nat) : Bool := (p.slotInfo k).isSome

/-- The physical address a window starts at; its four low bits are zero (R525). -/
def Window.start (w : Window) : Nat := w.base.toNat * 16

/-- The bytes a window spans: 2^(11+S), and none for S = 0 (R115, R525). -/
def Window.bytes (w : Window) : Nat := if w.size = 0#4 then 0 else 2 ^ (11 + w.size.toNat)

/-- The physical byte lies in the window (R525). -/
def Window.covers (w : Window) (a : Nat) : Bool := decide (w.start ≤ a) && decide (a < w.start + w.bytes)

/-- Two byte ranges given by start and length have a byte in common. -/
def rangesMeet (a la b lb : Nat) : Bool :=
  decide (0 < la) && decide (0 < lb) && decide (a < b + lb) && decide (b < a + la)

/-- A range has a byte in common with a region of the platform above the low 64 KiB. -/
def Region.meetsHigh (r : Region) (a la : Nat) : Bool :=
  rangesMeet a la (max r.base 0x10000) (r.base + r.size - max r.base 0x10000)

/-- A range has a byte in common with RAM or ROM. -/
def Platform.meetsMemory (p : Platform) (a la : Nat) : Bool :=
  rangesMeet a la 0 p.lowRamEnd
    || rangesMeet a la p.lowRomStart (0x10000 - p.lowRomStart)
    || p.highRam.any (Region.meetsHigh · a la)
    || p.highRom.any (Region.meetsHigh · a la)

/-- What HWQ $11 asks of a window for a slot (R526): the slot present, the size code supported (0 always is, D29), the
base a multiple of the size. -/
def Platform.windowAccepted (p : Platform) (k : Nat) (w : Window) : Bool :=
  match p.slotInfo k with
  | none => false
  | some info => decide (w.size = 0#4) || (info.sizes.contains w.size && decide (w.start % w.bytes = 0))

end Sys2Proof

namespace Sys2Proof.Machine

/-- No window: what a slot that is not listed holds (log 7). -/
def noWindow : Window := { base := 0#28, size := 0#4 }

/-- window[k] (R533). -/
def Sbc.window (c : Sbc) (k : Nat) : Window := sparseGet noWindow c.windows k

/-- cfg[k] (R533). -/
def Sbc.config (c : Sbc) (k : Nat) : BitVec 4 := sparseGet 0#4 c.configs k

/-- irq[k] (R502). -/
def Sbc.request (c : Sbc) (k : Nat) : Bool := sparseGet false c.irq k

/-- What a physical byte address is (R108). -/
inductive ByteKind where
  | ram
  | rom
  | window (slot : Nat)
  | unconnected
deriving DecidableEq, Repr

/-- The slot whose window covers the byte: the lowest listed one (windows never overlap, U8). -/
def windowSlotAt : List (Nat × Window) → Nat → Option Nat
  | [], _ => none
  | (k, w) :: rest, a => if w.covers a then some k else windowSlotAt rest a

/-- PhysMap with the windows placed by HWQ $11 (R108, R109). A window over addresses of the low 64 KiB that small RAM or ROM
leaves uncovered routes to its device, with the MMU off too (R526 against R113 and 70_reset_and_hazards.md R570; DESIGN
CHOICE, log 54). -/
def State.kindAt (s : State) (a : DWord) : ByteKind :=
  if s.platform.isRam a.toNat then .ram
  else if s.platform.isRom a.toNat then .rom
  else match windowSlotAt s.sbc.windows a.toNat with
    | some k => .window k
    | none => .unconnected

/-- What memory holds at a physical byte: RAM and ROM contents, zero where nothing is connected (R108, D25); zero in a
device window, which is not the machine's memory. -/
def State.byteAt (s : State) (a : DWord) : Byte :=
  match s.kindAt a with
  | .ram => s.ram.read a.toNat
  | .rom => s.rom.read a.toNat
  | .window _ => 0#8
  | .unconnected => 0#8

/-- One free word and the state after the draw (log 12). -/
def State.drawWord (s : State) : Word × State := (Config.freeWord s.draws, { s with draws := s.draws + 1 })

/-- PhysRead(a, 1) (R109): contents of RAM and ROM, zero where nothing is connected, and in a window whatever the device
answers (R115, R134, log 15). -/
def State.physRead1 (s : State) (a : DWord) : Byte × State :=
  match s.kindAt a with
  | .window _ => (Config.deviceByte s.draws, { s with draws := s.draws + 1 })
  | .ram => (s.byteAt a, s)
  | .rom => (s.byteAt a, s)
  | .unconnected => (s.byteAt a, s)

/-- PhysRead(a, 2), little-endian (R100, R109). -/
def State.physRead2 (s : State) (a : DWord) : Word × State :=
  let (low, s1) := s.physRead1 a
  let (high, s2) := s1.physRead1 (a + 1#32)
  (high ++ low, s2)

/-- PhysRead(a, 4), little-endian (R101, R109). -/
def State.physRead4 (s : State) (a : DWord) : DWord × State :=
  let (low, s1) := s.physRead2 a
  let (high, s2) := s1.physRead2 (a + 2#32)
  (high ++ low, s2)

/-- PhysWrite(a, 1, v) (R109): RAM takes the byte; ROM and unconnected addresses ignore it (R108, R582); in a window it is
handed to the device, which is outside the machine (log 15). -/
def State.physWrite1 (s : State) (a : DWord) (v : Byte) : State :=
  match s.kindAt a with
  | .ram => { s with ram := s.ram.write a.toNat v }
  | .rom => s
  | .window _ => s
  | .unconnected => s

/-- PhysWrite(a, 2, v), little-endian (R100, R109). -/
def State.physWrite2 (s : State) (a : DWord) (v : Word) : State :=
  (s.physWrite1 a (v.extractLsb' 0 8)).physWrite1 (a + 1#32) (v.extractLsb' 8 8)

/-- PhysWrite(a, 4, v), little-endian (R101, R109). -/
def State.physWrite4 (s : State) (a : DWord) (v : DWord) : State :=
  (s.physWrite2 a (v.extractLsb' 0 16)).physWrite2 (a + 2#32) (v.extractLsb' 16 16)

/-- A window of slot `k` has a byte in common with the window of another slot. -/
def meetsOtherWindow (windows : List (Nat × Window)) (k : Nat) (w : Window) : Bool :=
  windows.any fun e => decide (e.1 ≠ k) && rangesMeet w.start w.bytes e.2.start e.2.bytes

/-- The overlap that U8 refuses: with RAM, with ROM or with another slot's window. Addresses of the low 64 KiB that small RAM
or ROM leaves uncovered are neither, so a window may lie there (DESIGN CHOICE, log 54). -/
def State.windowOverlaps (s : State) (k : Nat) (w : Window) : Bool :=
  s.platform.meetsMemory w.start w.bytes || meetsOtherWindow s.sbc.windows k w

/-- The windows placed one by one, leaving out every one that HWQ $11 would not place (log 47). -/
def placeWindows (s : State) : List (Nat × Window) → State
  | [] => s
  | (k, w) :: rest =>
    if s.platform.windowAccepted k w && !s.windowOverlaps k w then
      placeWindows { s with sbc := { s.sbc with windows := sparseSet noWindow s.sbc.windows k w } } rest
    else placeWindows s rest

/-- Interrupt configurations of present slots, one by one (R533). -/
def placeConfigs (p : Platform) (configs : List (Nat × BitVec 4)) : List (Nat × BitVec 4) → List (Nat × BitVec 4)
  | [] => configs
  | (k, c) :: rest => placeConfigs p (if p.present k then sparseSet 0#4 configs k c else configs) rest

/-- RAM filled byte by byte; addresses that are not RAM are left out (R108). -/
def fillRam (p : Platform) (ram : Memory) : List (Nat × Byte) → Memory
  | [] => ram
  | (a, v) :: rest => fillRam p (if decide (a < 2 ^ 32) && p.isRam a then ram.write a v else ram) rest

/-- EN of a slot's interrupt configuration (R527). -/
def configEnabled (c : BitVec 4) : Bool := c.getLsbD 0

/-- PRI of a slot's interrupt configuration (R527). -/
def configPriority (c : BitVec 4) : BitVec 3 := c.extractLsb' 1 3

/-- The better of the candidate so far and the slots still to see: the greatest PRI, among equal PRI the lowest slot,
slots being listed in rising order (R502). -/
def bestCandidate (p : Platform) (sbc : Sbc) (best : Option Nat) : List (Nat × Bool) → Option Nat
  | [] => best
  | (k, asserted) :: rest =>
    let eligible := asserted && p.present k && configEnabled (sbc.config k)
    let better := match best with
      | none => true
      | some j => decide ((configPriority (sbc.config j)).toNat < (configPriority (sbc.config k)).toNat)
    bestCandidate p sbc (if eligible && better then some k else best) rest

/-- HwiCandidate() (R502). -/
def State.hwiCandidate (s : State) : Option Nat := bestCandidate s.platform s.sbc none s.sbc.irq

end Sys2Proof.Machine
end

