-- ==== Sys2Proof/Machine/Ops.lean ====
section
/-! DEFINITION. The named operations over registers and memory: register access, address translation and the logical
accesses (20_memory.md R105 to R128), the stack (10_state.md R46), taking an exception (60_exceptions.md R480 to R493),
returning from one (49_control.md R409), and the Reset sequence (70_reset_and_hazards.md R560). -/

namespace Sys2Proof.Machine

/-! ## Registers -/

/-- x[r] (10_state.md R30). -/
def State.reg (s : State) (r : Reg) : Word := s.regs[r.toNat]'r.isLt

/-- x[r] <- v (R30). -/
def State.setReg (s : State) (r : Reg) (v : Word) : State := { s with regs := s.regs.set r.toNat v r.isLt }

/-- The 32-bit value of a register pair: R(2p) low, R(2p+1) high (R32). -/
def State.pair (s : State) (p : Pair) : DWord := s.reg (pairHi p) ++ s.reg (pairLo p)

/-- Both registers of a pair, low half first (R32). -/
def State.setPair (s : State) (p : Pair) (v : DWord) : State :=
  (s.setReg (pairLo p) (v.extractLsb' 0 16)).setReg (pairHi p) (v.extractLsb' 16 16)

/-- SP: the stack pointer of the current mode (R45). -/
def State.sp (s : State) : Word :=
  match s.ps.mode with
  | .user => s.su
  | .supervisor => s.ss

/-- SP <- v (R45). -/
def State.setSp (s : State) (v : Word) : State :=
  match s.ps.mode with
  | .user => { s with su := v }
  | .supervisor => { s with ss := v }

/-- The processor is in user mode (PS.P = 00). -/
def State.inUser (s : State) : Bool := decide (s.ps.mode = .user)

/-! ## Accesses that can raise a fault -/

/-- A first-level fault with what it records (60_exceptions.md R462, R463, R483). -/
inductive FaultCause where
  /-- UnprivFault, vector $02. -/
  | unpriv
  /-- UndefFault, vector $03. -/
  | undef
  /-- PageFault, vector $04: the new IC and the address for FA (20_memory.md R125). -/
  | page (cause : Word) (address : Word)
  /-- DivZeroFault, vector $05. -/
  | divZero
  /-- AlignFault, vector $06. -/
  | align
deriving DecidableEq, Repr

/-- What an operation on memory answers: its value and the state after it, or the fault it raises and the state it leaves
behind, in which only memory that earlier accesses wrote can differ (60_exceptions.md R486). -/
inductive Access (α : Type) where
  | done (value : α) (s : State)
  | abort (cause : FaultCause) (s : State)
deriving DecidableEq, Repr

/-- One operation after another; an abort ends the sequence. -/
def Access.bind {α β : Type} (x : Access α) (f : α → State → Access β) : Access β :=
  match x with
  | .done a s => f a s
  | .abort e s => .abort e s

/-- The privilege of an access (20_memory.md R127). -/
abbrev Privilege := Mode

/-- The kind of an access (R120). -/
inductive AccessKind where
  | read
  | write
  | exec
deriving DecidableEq, Repr

/-- The base register an access is translated through: TU or TS (R120). -/
def State.tableRegister (s : State) (p : Privilege) : DWord :=
  match p with
  | .user => s.tu
  | .supervisor => s.ts

/-- The physical address of entry `idx` of the table a base register points at (R123). -/
def entryAddress (base : DWord) (idx : BitVec 4) : DWord := base.extractLsb' 6 26 ++ idx ++ 0#2

/-- Bit P of a page table entry (R122). -/
def ptePresent (pte : DWord) : Bool := pte.getLsbD 0
/-- Bit W (R122). -/
def pteWritable (pte : DWord) : Bool := pte.getLsbD 1
/-- Bit E (R122). -/
def pteExecutable (pte : DWord) : Bool := pte.getLsbD 2
/-- Bit U (R122). -/
def pteUser (pte : DWord) : Bool := pte.getLsbD 5

/-- The entry with bit A set, and bit D for a write (R126). -/
def pteTouched (k : AccessKind) (pte : DWord) : DWord :=
  match k with
  | .write => pte ||| 0x18#32
  | .read => pte ||| 0x10#32
  | .exec => pte ||| 0x10#32

/-- IC[0] of a fault raised by an access of privilege `p`: made with user privilege while PS.P = 00 (R125). -/
def State.userFault (s : State) (p : Privilege) : Bool := decide (p = .user) && s.inUser

/-- The cause word of a PageFault from its six bits (R125). -/
def pageCause (user notPresent write exec privilege badTable : Bool) : Word :=
  0#10 ++ BitVec.ofBool badTable ++ BitVec.ofBool privilege ++ BitVec.ofBool exec ++ BitVec.ofBool write
    ++ BitVec.ofBool notPresent ++ BitVec.ofBool user

/-- The entry does not permit the access (R120, R124): not present, user privilege without U, a write without W, a fetch
without E. -/
def pteForbids (p : Privilege) (k : AccessKind) (pte : DWord) : Bool :=
  !ptePresent pte || (decide (p = .user) && !pteUser pte)
    || (decide (k = .write) && !pteWritable pte) || (decide (k = .exec) && !pteExecutable pte)

/-- The cause word for an entry that forbids the access (R125). -/
def forbiddenCause (user : Bool) (p : Privilege) (k : AccessKind) (pte : DWord) : Word :=
  pageCause user (!ptePresent pte)
    (decide (k = .write) && (!ptePresent pte || !pteWritable pte))
    (decide (k = .exec) && (!ptePresent pte || !pteExecutable pte))
    (ptePresent pte && decide (p = .user) && !pteUser pte)
    false

/-- The entry written back where a bit changed (R126). -/
def State.writeBack (s : State) (addr : DWord) (old new : DWord) : State :=
  if new = old then s else s.physWrite4 addr new

/-- Translate(priv, kind, va) (R112, R120 to R126). -/
def State.translate (s : State) (p : Privilege) (k : AccessKind) (va : Word) : Access DWord :=
  if s.ps.mmu then
    let base := s.tableRegister p
    if base.extractLsb' 0 2 = 0#2 then
      let addr := entryAddress base (va.extractLsb' 12 4)
      let (pte, s1) := s.physRead4 addr
      if pteForbids p k pte then .abort (.page (forbiddenCause (s.userFault p) p k pte) va) s1
      else .done (pte.extractLsb' 12 20 ++ va.extractLsb' 0 12) (s1.writeBack addr pte (pteTouched k pte))
    else .abort (.page (pageCause (s.userFault p) false false false false true) va) s
  else .done (va.setWidth 32) s

/-- A 16-bit access: the alignment check on the logical address, then the translation (R105, R128). -/
def State.translateWord (s : State) (p : Privilege) (k : AccessKind) (va : Word) : Access DWord :=
  if va.getLsbD 0 then .abort .align s else s.translate p k va

/-- Access(priv, read or exec, va, 2) (R128). -/
def State.readWordAs (s : State) (p : Privilege) (k : AccessKind) (va : Word) : Access Word :=
  (s.translateWord p k va).bind fun pa s1 => let (v, s2) := s1.physRead2 pa; .done v s2

/-- Access(priv, read, va, 1): never an AlignFault (R107, R128). -/
def State.readByteAs (s : State) (p : Privilege) (va : Word) : Access Byte :=
  (s.translate p .read va).bind fun pa s1 => let (v, s2) := s1.physRead1 pa; .done v s2

/-- Access(priv, write, va, 2, v) (R128). -/
def State.writeWordAs (s : State) (p : Privilege) (va v : Word) : Access Unit :=
  (s.translateWord p .write va).bind fun pa s1 => .done () (s1.physWrite2 pa v)

/-- Access(priv, write, va, 1, v) (R107, R128). -/
def State.writeByteAs (s : State) (p : Privilege) (va : Word) (v : Byte) : Access Unit :=
  (s.translate p .write va).bind fun pa s1 => .done () (s1.physWrite1 pa v)

/-- MemRead(va, 2) in the current mode (R127, R128). -/
def State.readWord (s : State) (va : Word) : Access Word := s.readWordAs s.ps.mode .read va

/-- MemRead(va, 1) in the current mode (R127, R128). -/
def State.readByte (s : State) (va : Word) : Access Byte := s.readByteAs s.ps.mode va

/-- MemWrite(va, 2, v) in the current mode (R127, R128). -/
def State.writeWord (s : State) (va v : Word) : Access Unit := s.writeWordAs s.ps.mode va v

/-- MemWrite(va, 1, v) in the current mode (R127, R128). -/
def State.writeByte (s : State) (va : Word) (v : Byte) : Access Unit := s.writeByteAs s.ps.mode va v

/-- Fetch(va): an exec access in the current mode (R127, R128). -/
def State.fetch (s : State) (va : Word) : Access Word := s.readWordAs s.ps.mode .exec va

/-- Several words pushed one after another from stack pointer `sp` down, with privilege `p` (10_state.md R46): the stack
pointer after the last. The stack pointer registers are not changed. -/
def State.pushWords (s : State) (p : Privilege) (sp : Word) : List Word → Access Word
  | [] => .done sp s
  | v :: rest => (s.writeWordAs p (sp - 2#16) v).bind fun _ s1 => s1.pushWords p (sp - 2#16) rest

/-- The words of `count` pops from stack pointer `sp` up, in the order popped, with privilege `p` (R46). The stack pointer
registers are not changed. -/
def State.popWords (s : State) (p : Privilege) (sp : Word) : Nat → Access (List Word)
  | 0 => .done [] s
  | n + 1 =>
    (s.readWordAs p .read sp).bind fun v s1 =>
      (s1.popWords p (sp + 2#16) n).bind fun rest s2 => .done (v :: rest) s2

/-! ## Taking an exception -/

/-- The events that enter a handler (60_exceptions.md R461); Reset is not among them (R505). -/
inductive Interrupt where
  | timer
  | unpriv
  | undef
  | page
  | divZero
  | align
  | double
  | hwi
  | swi
  | breakpoint
  | debugQuery
deriving DecidableEq, Repr

/-- The vector number (R461). -/
def Interrupt.vector : Interrupt → Word
  | .timer => 0x01#16
  | .unpriv => 0x02#16
  | .undef => 0x03#16
  | .page => 0x04#16
  | .divZero => 0x05#16
  | .align => 0x06#16
  | .double => 0x07#16
  | .hwi => 0x08#16
  | .swi => 0x09#16
  | .breakpoint => 0x0A#16
  | .debugQuery => 0x0B#16

/-- The interrupt priority level (R490). -/
def Interrupt.priority : Interrupt → BitVec 3
  | .hwi => 1#3
  | .timer => 2#3
  | .swi => 3#3
  | .breakpoint => 4#3
  | .debugQuery => 5#3
  | .unpriv => 6#3
  | .undef => 6#3
  | .page => 6#3
  | .divZero => 6#3
  | .align => 6#3
  | .double => 7#3

/-- NewLevel(N, L): a trap never lowers the level (R491); every other event sets its own (R492, R493). -/
def Interrupt.newLevel (i : Interrupt) (level : BitVec 3) : BitVec 3 :=
  match i with
  | .swi => if level < i.priority then i.priority else level
  | .breakpoint => if level < i.priority then i.priority else level
  | .debugQuery => if level < i.priority then i.priority else level
  | .timer => i.priority
  | .hwi => i.priority
  | .unpriv => i.priority
  | .undef => i.priority
  | .page => i.priority
  | .divZero => i.priority
  | .align => i.priority
  | .double => i.priority

/-- The vector of a first-level fault (R461). -/
def FaultCause.interrupt : FaultCause → Interrupt
  | .unpriv => .unpriv
  | .undef => .undef
  | .page _ _ => .page
  | .divZero => .divZero
  | .align => .align

/-- The cause word with bit 0 = u, "Fault in User mode", and all other bits zero (R462). -/
def userCause (u : Bool) : Word := 0#15 ++ BitVec.ofBool u

/-- The new IC of a first-level fault (R462). -/
def FaultCause.cause (e : FaultCause) (u : Bool) : Word :=
  match e with
  | .page cause _ => cause
  | .unpriv => userCause u
  | .undef => userCause u
  | .divZero => userCause u
  | .align => userCause u

/-- Steps 1 to 4 of the entry sequence (R480): a Timer entry clears IM.C, FA is written where an address is given, the mode
becomes supervisor and the level that of the event. -/
def State.beginEntry (s : State) (i : Interrupt) (address : Option Word) : State :=
  { s with
    im := if i = .timer then { s.im with clock := false } else s.im
    fa := address.getD s.fa
    ps := { s.ps with mode := .supervisor, level := i.newLevel s.ps.level } }

/-- The entry sequence Enter(N, ic_new, fa) (R480): the frame PC, PS, IC is pushed through SS with supervisor privilege, IC
is written, and PC is loaded from [VB + 2*N]. An abort leaves what R487 says: SS, IC and PC as far as they were
written. -/
def State.enter (s : State) (i : Interrupt) (cause : Word) (address : Option Word) : Access Unit :=
  ((s.beginEntry i address).pushWords .supervisor s.ss [s.pc, s.ps.toWord, s.ic]).bind fun sp s1 =>
    let s2 := { s1 with ss := sp, ic := cause }
    (s2.readWordAs .supervisor .read (s2.vb + 2#16 * i.vector)).bind fun handler s3 =>
      .done () { s3 with pc := handler, asleep := false }

/-- A fault at level 7: TripleFault, nothing saved, Reset pending (R492). -/
def State.tripleFault (s : State) : State := { s with resetPending := true }

/-- A fault at level 6: the DoubleFault entry, FA left free (R483, R492); a fault inside that entry is a TripleFault,
because its level is 7 (R487). -/
def State.doubleFault (s : State) : State :=
  let (free, s1) := s.drawWord
  match s1.enter .double 0#16 (some free) with
  | .done _ t => t
  | .abort _ t => t.tripleFault

/-- The address for FA of a first-level fault: that of a PageFault, a free value for the others (R483, U6). -/
def State.faultAddress (s : State) (e : FaultCause) : Word × State :=
  match e with
  | .page _ address => (address, s)
  | .unpriv => s.drawWord
  | .undef => s.drawWord
  | .divZero => s.drawWord
  | .align => s.drawWord

/-- RaiseFault(X) (R492): the fault's own entry at level 5 and below, DoubleFault at 6, TripleFault at 7. A fault inside the
fault's own entry meets level 6 and is a DoubleFault (R487). -/
def State.raiseFault (s : State) (e : FaultCause) : State :=
  if s.ps.level.toNat ≤ 5 then
    let (address, s1) := s.faultAddress e
    match s1.enter e.interrupt (e.cause s.inUser) (some address) with
    | .done _ t => t
    | .abort _ t => t.doubleFault
  else if s.ps.level.toNat = 6 then s.doubleFault
  else s.tripleFault

/-- The entry of a trap or of an asynchronous interrupt; a fault inside it is raised at the level the entry has set
(R487). -/
def State.takeInterrupt (s : State) (i : Interrupt) (cause : Word) : State :=
  match s.enter i cause none with
  | .done _ t => t
  | .abort e t => t.raiseFault e

/-- The state after an instruction made of accesses: its own effect, or the fault it raised (60_exceptions.md R486, 00_scope.md
R17). -/
def Access.settle (x : Access Unit) : State :=
  match x with
  | .done _ t => t
  | .abort e t => t.raiseFault e

/-- What a privileged instruction does in user mode: UnprivFault and nothing else (R541, R486). -/
def State.ifSupervisor (s : State) (x : Access Unit) : Access Unit := if s.inUser then .abort .unpriv s else x

/-! ## Returning from an exception -/

/-- The three pops of RTI: IC at SS, PS at SS + 2, PC at SS + 4, with supervisor privilege (49_control.md R409). -/
def State.popFrame (s : State) : Access (Word × Word × Word) :=
  (s.readWordAs .supervisor .read s.ss).bind fun ic s1 =>
    (s1.readWordAs .supervisor .read (s.ss + 2#16)).bind fun ps s2 =>
      (s2.readWordAs .supervisor .read (s.ss + 4#16)).bind fun pc s3 => .done (ic, ps, pc) s3

/-- RTI in supervisor mode (R409): all three words are read before SS, IC, PS and PC are written; no next state where the
restored PS has PS.P = 10 or 11 (U3). -/
def State.returnFromInterrupt (s : State) : Host.Outcome State Fault Refusal :=
  match s.popFrame with
  | .done (ic, ps, pc) t =>
    match Status.ofWord? ps with
    | some status => .next { t with ss := s.ss + 6#16, ic := ic, ps := status, pc := pc }
    | none => .refused .reservedMode
  | .abort e t => .next (t.raiseFault e)

/-! ## Reset -/

/-- The registers after a Reset, every one free from draw `n` up (70_reset_and_hazards.md R561, U10, log 33). -/
def freeRegisters (n : Nat) : Vector Word 8 :=
  #v[Config.freeWord n, Config.freeWord (n + 1), Config.freeWord (n + 2), Config.freeWord (n + 3),
    Config.freeWord (n + 4), Config.freeWord (n + 5), Config.freeWord (n + 6), Config.freeWord (n + 7)]

/-- A free 32-bit value from two draws. -/
def freeDWord (n : Nat) : DWord := Config.freeWord (n + 1) ++ Config.freeWord n

/-- The items R561 calls unspecified, free: general registers, SU, SS, IM, FA, TU, TS, CL, CC, RAM, and the SBC's windows and
interrupt configurations (log 33, log 47). ROM, NVRAM, the clock, the lines and the platform stay. -/
def State.forget (s : State) : State :=
  let n := s.draws
  let s1 :=
    { s with
      regs := freeRegisters n
      su := Config.freeWord (n + 8)
      ss := Config.freeWord (n + 9)
      fa := Config.freeWord (n + 10)
      im := IntMask.ofWord (Config.freeWord (n + 11))
      tu := freeDWord (n + 12)
      ts := freeDWord (n + 14)
      cl := freeDWord (n + 16)
      cc := freeDWord (n + 18)
      ram := fillRam s.platform [] (Config.freeRam n)
      sbc := { s.sbc with windows := [], configs := placeConfigs s.platform [] (Config.freeConfigs n) }
      draws := n + 20 }
  placeWindows s1 (Config.freeWindows n)

/-- The Reset sequence (R560). The processor stays in Reset while the RESET line is high (60_exceptions.md R505, D28): the
request is then pending again. -/
def State.resetSequence (s : State) : State :=
  let s1 :=
    { s.forget with
      resetPending := s.resetLine
      asleep := false
      debugLatch := false
      ps := { mode := .supervisor, mmu := false, ie := false, level := 0#3, n := false, z := false, c := false, v := false }
      vb := 0xFFE0#16
      ic := 0#16 }
  let (vector, s2) := s1.physRead2 0x0000FFE0#32
  { s2 with pc := vector }

/-! ## The environment, the clock and the instruction boundary -/

/-- One event of the environment (60_exceptions.md R502, R504, R505, R531, R533, log 11): a low-to-high transition of DEBUG
latches one request; a high RESET line makes Reset pending. -/
def State.applyEvent (s : State) (e : Event) : State :=
  match e with
  | .resetLine high => { s with resetLine := high, resetPending := s.resetPending || high }
  | .debugLine high => { s with debugLine := high, debugLatch := s.debugLatch || (high && !s.debugLine) }
  | .irqLine slot asserted => { s with sbc := { s.sbc with irq := sparseSet false s.sbc.irq slot asserted } }
  | .clock time => { s with sbc := { s.sbc with rtc := time } }
  | .nvramProtect on => { s with sbc := { s.sbc with nvramProtected := on } }
  | .nvramFail on => { s with sbc := { s.sbc with nvramFailing := on } }

/-- What the environment does before this boundary (R500, log 11). -/
def State.takeInputs (s : State) : State :=
  match s.inputs with
  | [] => s
  | events :: rest => events.foldl State.applyEvent { s with inputs := rest }

/-- What happens at an instruction boundary (R500). -/
inductive Boundary where
  | reset
  | debugQuery
  | timer
  | hwi (slot : Nat)
  | sleep
  | run
deriving DecidableEq, Repr

/-- The Timer's conditions (R493, R510). -/
def State.timerReady (s : State) : Bool :=
  s.ps.ie && s.im.clock && decide (s.cc.toNat ≤ s.cl.toNat) && decide (s.ps.level.toNat < 2)

/-- The HWI's conditions on the processor (R493, R502). -/
def State.hwiAllowed (s : State) : Bool := s.ps.ie && s.im.hardware && decide (s.ps.level.toNat < 1)

/-- The first of Reset, DebugQuery, Timer, HWI that is ready; else the sleep goes on, or an instruction runs (R500, D21,
10_state.md R36). -/
def State.boundary (s : State) : Boundary :=
  if s.resetPending || s.resetLine then .reset
  else if s.debugLatch then .debugQuery
  else if s.timerReady then .timer
  else if s.hwiAllowed then
    match s.hwiCandidate with
    | some k => .hwi k
    | none => if s.asleep then .sleep else .run
  else if s.asleep then .sleep else .run

/-- CL after `n` cycles, modulo 2^32 (10_state.md R53). -/
def State.tick (s : State) (n : Nat) : State := { s with cl := s.cl + BitVec.ofNat 32 n }

/-- CL after a step that executes no instruction: an open positive amount (70_reset_and_hazards.md R585, D20, log 17). -/
def State.idleTick (s : State) : State := { s with draws := s.draws + 1 }.tick (1 + Config.idleCycles s.draws)

/-- An asynchronous interrupt at a boundary: the sleep ends and its handler is entered (10_state.md R36, R512). -/
def State.interruptStep (s : State) (i : Interrupt) (cause : Word) : State :=
  ({ s with asleep := false }.takeInterrupt i cause).idleTick

end Sys2Proof.Machine
end

