-- ==== Sys2Proof/Machine/Operands.lean ====
section
/-! DEFINITION. What an immediate field stands for (30_encoding.md R185), the effective addresses (40_load_store.md R237) and
the shift count (45_shift.md R310, R311). All address arithmetic is modulo 2^16 (R238). -/

namespace Sys2Proof.Machine

/-- imm3: 0 to 7 (R185). -/
def imm3 (i : BitVec 3) : Word := i.setWidth 16

/-- imm5i: the field plus one, 1 to 32 (R185). -/
def imm5i (i : BitVec 5) : Word := i.setWidth 16 + 1#16

/-- A signed offset in words, as bytes: sign-extended to 16 bits, then doubled (R185; imm6s, imm8s, imm9s, imm12s). -/
def wordOffset {n : Nat} (i : BitVec n) : Word := 2#16 * i.signExtend 16

/-- register + register (R220, R222, R226, R228). -/
def State.eaReg (s : State) (m n : Reg) : Word := s.reg m + s.reg n

/-- register + imm3 words (R221, R227). -/
def State.eaWordImm (s : State) (m : Reg) (i : BitVec 3) : Word := s.reg m + 2#16 * imm3 i

/-- register + imm3 bytes (R223, R229). -/
def State.eaByteImm (s : State) (m : Reg) (i : BitVec 3) : Word := s.reg m + imm3 i

/-- PC + imm6s words, PC being the address of the next instruction (R224, R230). -/
def State.eaPc (s : State) (i : BitVec 6) : Word := s.pc + wordOffset i

/-- SP + imm6s words, SP of the current mode (R225, R231). -/
def State.eaSp (s : State) (i : BitVec 6) : Word := s.sp + wordOffset i

/-- imm3i: the field plus one, a count of 1 to 8 (R310). -/
def immCount (i : BitVec 3) : Nat := i.toNat + 1

/-- The count taken from a register, saturated at 15 (R311, D1, log 18). -/
def regCount (v : Word) : Nat := min v.toNat 15

/-- PC after a taken branch (48_jump_branch.md R389). -/
def State.branchTarget {n : Nat} (s : State) (i : BitVec n) : Word := s.pc + wordOffset i

/-- The effect of a branch: PC moves if the condition holds, and nothing else (R389). -/
def State.branchIf {n : Nat} (s : State) (condition : Bool) (i : BitVec n) : State :=
  if condition then { s with pc := s.branchTarget i } else s

end Sys2Proof.Machine
end

