-- ==== Sys2Proof/Machine/Flags.lean ====
section
/-! DEFINITION. Results and flags: the adder and subtracter (42_math.md R258, R259), multiply and divide (R260 to R263),
shifts and rotates (45_shift.md R312 to R318), and how flags are put into PS (10_state.md R42). -/

namespace Sys2Proof.Machine

/-- A 16-bit result with its four flags. -/
structure AluResult where
  value : Word
  n : Bool
  z : Bool
  c : Bool
  v : Bool
deriving DecidableEq, Repr

/-- AddFlags(a, b, c) (R258). -/
def addFlags (a b : Word) (c : Bool) : AluResult :=
  let t := a.toNat + b.toNat + c.toNat
  let r := BitVec.ofNat 16 t
  { value := r, n := r.msb, z := decide (r = 0#16), c := decide (2 ^ 16 ≤ t), v := a.msb == b.msb && r.msb != a.msb }

/-- SubFlags(a, b, c), where c = 1 means no borrow (R259). -/
def subFlags (a b : Word) (c : Bool) : AluResult :=
  let borrow : Int := 1 - c.toNat
  let t : Int := a.toNat - b.toNat - borrow
  let exact : Int := a.toInt - b.toInt - borrow
  let r := BitVec.ofInt 16 t
  { value := r, n := r.msb, z := decide (r = 0#16), c := decide (0 ≤ t)
    v := decide (exact < -32768) || decide (32767 < exact) }

/-- N and Z from a 16-bit value (R42). -/
def State.setNZ (s : State) (r : Word) : State := { s with ps := { s.ps with n := r.msb, z := decide (r = 0#16) } }

/-- C alone. -/
def State.setC (s : State) (c : Bool) : State := { s with ps := { s.ps with c := c } }

/-- V alone. -/
def State.setV (s : State) (v : Bool) : State := { s with ps := { s.ps with v := v } }

/-- Z alone. -/
def State.setZ (s : State) (z : Bool) : State := { s with ps := { s.ps with z := z } }

/-- N alone. -/
def State.setN (s : State) (n : Bool) : State := { s with ps := { s.ps with n := n } }

/-- The four flags of a result (R250 to R257). -/
def State.setFlags (s : State) (r : AluResult) : State :=
  { s with ps := { s.ps with n := r.n, z := r.z, c := r.c, v := r.v } }

/-- A result with its four flags into Rd (R250 to R257). -/
def State.putAlu (s : State) (d : Reg) (r : AluResult) : State := (s.setReg d r.value).setFlags r

/-- A value into Rd with N and Z from it, C and V unchanged (R290 to R293, R315, R316, R238). -/
def State.putNZ (s : State) (d : Reg) (r : Word) : State := (s.setReg d r).setNZ r

/-- A value into Rd with N and Z from it and the given C (R312, R313, R317, R318). -/
def State.putNZC (s : State) (d : Reg) (r : Word) (c : Bool) : State := (s.putNZ d r).setC c

/-- A loaded byte, zero-extended (R222, R238). -/
def zeroExtendByte (b : Byte) : Word := b.setWidth 16

/-- The 32-bit product of the unsigned values (R260). -/
def mulUnsigned (a b : Word) : DWord := BitVec.ofNat 32 (a.toNat * b.toNat)

/-- The 32-bit two's-complement product of the signed values (R261). -/
def mulSigned (a b : Word) : DWord := BitVec.ofInt 32 (a.toInt * b.toInt)

/-- A product into a pair with N, Z and C (R260, R261). -/
def State.putProduct (s : State) (p : Pair) (v : DWord) (n : Bool) : State :=
  let t := s.setPair p v
  { t with ps := { t.ps with n := n, z := decide (v = 0#32), c := decide (v.extractLsb' 16 16 ≠ 0#16) } }

/-- Quotient and remainder into a pair (R262, R263). -/
def State.putQuotient (s : State) (p : Pair) (q r : Word) : State := (s.setReg (pairLo p) q).setReg (pairHi p) r

/-- floor(u(a) / u(b)) and the remainder (R262). -/
def divUnsigned (a b : Word) : Word × Word :=
  (BitVec.ofNat 16 (a.toNat / b.toNat), BitVec.ofNat 16 (a.toNat % b.toNat))

/-- trunc(s(a) / s(b)) and the remainder, which has the dividend's sign (R263). -/
def divSigned (a b : Word) : Int × Int := (Int.tdiv a.toInt b.toInt, Int.tmod a.toInt b.toInt)

/-- LSL: the value, and C set where a bit shifted out past bit 15 was 1 (R312). -/
def shiftLeft (v : Word) (x : Nat) : Word × Bool := (v <<< x, decide (0 < x ∧ v >>> (16 - x) ≠ 0#16))

/-- C of a right shift: a bit shifted out past bit 0 was 1 (R313, R314). -/
def lostRight (v : Word) (x : Nat) : Bool := decide (0 < x ∧ v.toNat % 2 ^ x ≠ 0)

/-- LSR: the value and C (R313). -/
def shiftRight (v : Word) (x : Nat) : Word × Bool := (v >>> x, lostRight v x)

/-- ASR: the value and C (R314). -/
def shiftArith (v : Word) (x : Nat) : Word × Bool := (v.sshiftRight x, lostRight v x)

/-- V of ASR: a negative value has become -1 (R314). -/
def arithOverflow (v r : Word) : Bool := decide (v ≠ 0xFFFF#16) && decide (r = 0xFFFF#16)

/-- RNL (R315). -/
def rotateLeft (v : Word) (x : Nat) : Word := v.rotateLeft x

/-- RNR (R316). -/
def rotateRight (v : Word) (x : Nat) : Word := v.rotateRight x

/-- ROL: `x` one-bit steps of [C | Rd] to the left (R317). -/
def rotateLeftCarry (v : Word) (c : Bool) : Nat → Word × Bool
  | 0 => (v, c)
  | x + 1 => rotateLeftCarry ((v <<< 1) ||| (BitVec.ofBool c).setWidth 16) v.msb x

/-- ROR: `x` one-bit steps of [C | Rd] to the right (R318). -/
def rotateRightCarry (v : Word) (c : Bool) : Nat → Word × Bool
  | 0 => (v, c)
  | x + 1 => rotateRightCarry ((v >>> 1) ||| ((BitVec.ofBool c).setWidth 16 <<< 15)) (v.getLsbD 0) x

/-- The word with only the indexed bit set (46_bit_test.md R331). -/
def bitMask (i : BitVec 4) : Word := 1#16 <<< i.toNat

/-- The indexed bit of a word (R330). -/
def testBit (w : Word) (i : BitVec 4) : Bool := w.getLsbD i.toNat

/-- Z and C of a bit instruction: Z is set where the old bit was 0 (R331 to R333). -/
def State.setBitFlags (s : State) (old : Bool) (c : Bool) : State := { s with ps := { s.ps with z := !old, c := c } }

end Sys2Proof.Machine
end

