-- ==== Sys2Proof/Machine/BitTest.lean ====
section
/-! DEFINITION. Bit tests (46_bit_test.md). N and V never change. The memory forms work on the word at the address Rd holds;
the three that write translate once, for a write, and are one indivisible step (R338, D27, log 40). -/

namespace Sys2Proof.Machine

/-- BTT Rd, #Imm (R330). -/
def execBtt (d : Reg) (imm : BitVec 4) (s : State) : Host.Outcome State Fault Refusal :=
  .next (s.setZ (!testBit (s.reg d) imm))

/-- BTX Rd, #Imm: the bit is inverted; C is its new value (R331). -/
def execBtx (d : Reg) (imm : BitVec 4) (s : State) : Host.Outcome State Fault Refusal :=
  let old := testBit (s.reg d) imm
  .next ((s.setReg d (s.reg d ^^^ bitMask imm)).setBitFlags old (!old))

/-- BTC Rd, #Imm: the bit is cleared; C tells whether it changed (R332). -/
def execBtc (d : Reg) (imm : BitVec 4) (s : State) : Host.Outcome State Fault Refusal :=
  let old := testBit (s.reg d) imm
  .next ((s.setReg d (s.reg d &&& ~~~bitMask imm)).setBitFlags old old)

/-- BTS Rd, #Imm: the bit is set; C tells whether it changed (R333). -/
def execBts (d : Reg) (imm : BitVec 4) (s : State) : Host.Outcome State Fault Refusal :=
  let old := testBit (s.reg d) imm
  .next ((s.setReg d (s.reg d ||| bitMask imm)).setBitFlags old (!old))

/-- The read-modify-write of BTX.M, BTC.M and BTS.M: one translation for a write, then the word read and the changed word
written at that physical address (R335 to R339). Answers the word read. -/
def State.modifyWord (s : State) (va : Word) (change : Word → Word) : Access Word :=
  (s.translateWord s.ps.mode .write va).bind fun pa s1 =>
    let (w, s2) := s1.physRead2 pa
    .done w (s2.physWrite2 pa (change w))

/-- BTT.M Rd, #Imm (R334). -/
def execBttM (d : Reg) (imm : BitVec 4) (s : State) : Host.Outcome State Fault Refusal :=
  .next ((s.readWord (s.reg d)).bind fun w t => .done () (t.setZ (!testBit w imm))).settle

/-- BTX.M Rd, #Imm (R335). -/
def execBtxM (d : Reg) (imm : BitVec 4) (s : State) : Host.Outcome State Fault Refusal :=
  .next ((s.modifyWord (s.reg d) fun w => w ^^^ bitMask imm).bind fun w t =>
    .done () (t.setBitFlags (testBit w imm) (!testBit w imm))).settle

/-- BTC.M Rd, #Imm (R336). -/
def execBtcM (d : Reg) (imm : BitVec 4) (s : State) : Host.Outcome State Fault Refusal :=
  .next ((s.modifyWord (s.reg d) fun w => w &&& ~~~bitMask imm).bind fun w t =>
    .done () (t.setBitFlags (testBit w imm) (testBit w imm))).settle

/-- BTS.M Rd, #Imm (R337). -/
def execBtsM (d : Reg) (imm : BitVec 4) (s : State) : Host.Outcome State Fault Refusal :=
  .next ((s.modifyWord (s.reg d) fun w => w ||| bitMask imm).bind fun w t =>
    .done () (t.setBitFlags (testBit w imm) (!testBit w imm))).settle

end Sys2Proof.Machine
end

