-- ==== Sys2Proof/Machine/Control.lean ====
section
/-! DEFINITION. Processor control (49_control.md): BRK, SWI, RTI, SLP, NOP and the flag instructions. -/

namespace Sys2Proof.Machine

/-- The new IC of a breakpoint: bit 0 = u, bit 1 = 0, bits 7:2 the immediate (60_exceptions.md R462). -/
def breakCause (u : Bool) (imm : BitVec 6) : Word := 0#8 ++ imm ++ 0#1 ++ BitVec.ofBool u

/-- BRK #Imm: takes the Breakpoint (R400). -/
def execBrk (imm : BitVec 6) (s : State) : Host.Outcome State Fault Refusal :=
  .next (s.takeInterrupt .breakpoint (breakCause s.inUser imm))

/-- SWI: takes the software interrupt (R410). -/
def execSwi (s : State) : Host.Outcome State Fault Refusal := .next (s.takeInterrupt .swi (userCause s.inUser))

/-- RTI: privileged; returns from an interrupt (R409). -/
def execRti (s : State) : Host.Outcome State Fault Refusal :=
  if s.inUser then .next (s.raiseFault .unpriv) else s.returnFromInterrupt

/-- SLP: privileged; the processor sleeps from the next boundary on (R411). -/
def execSlp (s : State) : Host.Outcome State Fault Refusal :=
  .next (s.ifSupervisor (.done () { s with asleep := true })).settle

/-- NOP: nothing changes (R412). -/
def execNop (s : State) : Host.Outcome State Fault Refusal := .next s

/-- SFV: V is set (R413). -/
def execSfv (s : State) : Host.Outcome State Fault Refusal := .next (s.setV true)

/-- CFV: V is cleared (R414). -/
def execCfv (s : State) : Host.Outcome State Fault Refusal := .next (s.setV false)

/-- SFC: C is set (R415). -/
def execSfc (s : State) : Host.Outcome State Fault Refusal := .next (s.setC true)

/-- CFC: C is cleared (R416). -/
def execCfc (s : State) : Host.Outcome State Fault Refusal := .next (s.setC false)

/-- SFZ: Z is set (R417). -/
def execSfz (s : State) : Host.Outcome State Fault Refusal := .next (s.setZ true)

/-- CFZ: Z is cleared (R418). -/
def execCfz (s : State) : Host.Outcome State Fault Refusal := .next (s.setZ false)

/-- SFN: N is set (R419). -/
def execSfn (s : State) : Host.Outcome State Fault Refusal := .next (s.setN true)

/-- CFN: N is cleared (R420). -/
def execCfn (s : State) : Host.Outcome State Fault Refusal := .next (s.setN false)

end Sys2Proof.Machine
end

