-- ==== Sys2Proof/Machine/Hwq.lean ====
section
/-! DEFINITION. HWQ (49_control.md R408) and the twelve operations of the System Bus Controller (60_exceptions.md R520 to
R536). Registers an operation does not name, the flags and the special registers are unchanged (R520). -/

namespace Sys2Proof.Machine

/-- MSG_ACK (R520). -/
def msgAck : Word := 0x0001#16
/-- MSG_WAIT (R520). -/
def msgWait : Word := 0x0002#16
/-- MSG_ERROR, ERR_NO_DEVICE and NO_MEMORY (R520). -/
def msgError : Word := 0xFFFF#16

/-- The slot number: the whole of R0 (R520). -/
def State.slot (s : State) : Nat := (s.reg 0).toNat

/-- A free word into a register (U7, U9, log 45). -/
def State.freeReg (s : State) (r : Reg) : State :=
  let (free, t) := s.drawWord
  t.setReg r free

/-- HWQ $00: SLOTS (R521). -/
def State.hwqSlots (s : State) : State := s.setReg 0 (BitVec.ofNat 16 s.platform.slotCount)

/-- A size as a 32-bit value, or NO_MEMORY in both halves (R522). -/
def sizeOrNone (size : Option DWord) : DWord := size.getD 0xFFFFFFFF#32

/-- HWQ $01: RAM_BYTES in (R0, R1), ROM_BYTES in (R2, R3) (R522). -/
def State.hwqMemory (s : State) : State :=
  (s.setPair 0#2 (sizeOrNone s.platform.ramBytes)).setPair 1#2 (sizeOrNone s.platform.romBytes)

/-- HWQ $02: the four identification words of a slot; with no device R1 = ERR_NO_DEVICE and R2 to R4 are free (R523,
U7). -/
def State.hwqDescribe (s : State) : State :=
  match s.platform.slotInfo s.slot with
  | some info => (((s.setReg 1 info.kind).setReg 2 info.manufacturer).setReg 3 info.device).setReg 4 info.flags
  | none => (((s.setReg 1 msgError).freeReg 2).freeReg 3).freeReg 4

/-- The result code of a device's answer (R524). -/
def answerCode : Answer → Word
  | .ack => msgAck
  | .wait => msgWait
  | .error => msgError

/-- HWQ $03: the device answers one of the three codes, freely (R524, log 16); MSG_ERROR with no device. -/
def State.hwqMessage (s : State) : State :=
  if s.platform.present s.slot then
    { s with draws := s.draws + 1 }.setReg 1 (answerCode (Config.deviceAnswer s.draws))
  else s.setReg 1 msgError

/-- HWQ $10: BAR and size code of a slot's window in R2 and R3; with no device R1 = MSG_ERROR and R2, R3 are free (R525,
U7). -/
def State.hwqReadWindow (s : State) : State :=
  if s.platform.present s.slot then
    let w := s.sbc.window s.slot
    ((s.setReg 1 msgAck).setReg 2 (w.base.extractLsb' 0 12 ++ w.size)).setReg 3 (w.base.extractLsb' 12 16)
  else ((s.setReg 1 msgError).freeReg 2).freeReg 3

/-- The window R2 and R3 describe (R526): base address bits 31:4 from R3 and R2[15:4], size code R2[3:0]. -/
def State.askedWindow (s : State) : Window :=
  { base := s.reg 3 ++ (s.reg 2).extractLsb' 4 12, size := (s.reg 2).extractLsb' 0 4 }

/-- HWQ $11 (R526): a device not present, a size not supported or a base not aligned is MSG_ERROR and changes nothing; an
overlap has no next state (U8, log 14); else the window is set. -/
def State.hwqWriteWindow (s : State) : Host.Outcome State Fault Refusal :=
  let w := s.askedWindow
  if s.platform.windowAccepted s.slot w then
    if s.windowOverlaps s.slot w then .refused .overlappingWindows
    else
      .next ({ s with sbc := { s.sbc with windows := sparseSet noWindow s.sbc.windows s.slot w } }.setReg 1 msgAck)
  else .next (s.setReg 1 msgError)

/-- HWQ $12: the interrupt configuration of a slot (R527). -/
def State.hwqReadConfig (s : State) : State :=
  if s.platform.present s.slot then s.setReg 1 ((s.sbc.config s.slot).setWidth 16) else s.setReg 1 msgError

/-- HWQ $13: the interrupt configuration from R2; MSG_ERROR where R2[15:4] is not zero (R528, D29, log 42). R528 lets a
platform reject further values; the model's platform rejects none (DESIGN CHOICE, log 51). -/
def State.hwqWriteConfig (s : State) : State :=
  if s.platform.present s.slot && decide ((s.reg 2).extractLsb' 4 12 = 0#12) then
    { s with sbc := { s.sbc with configs := sparseSet 0#4 s.sbc.configs s.slot ((s.reg 2).extractLsb' 0 4) } }.setReg 1
      msgAck
  else s.setReg 1 msgError

/-- Year and month as R0 holds them (R536). -/
def RtcTime.word0 (t : RtcTime) : Word := t.year ++ 0#4 ++ BitVec.ofNat 4 t.month
/-- Day and hour as R1 holds them (R536). -/
def RtcTime.word1 (t : RtcTime) : Word := 0#3 ++ BitVec.ofNat 5 t.day ++ 0#3 ++ BitVec.ofNat 5 t.hour
/-- Minute and second as R2 holds them (R536). -/
def RtcTime.word2 (t : RtcTime) : Word := 0#2 ++ BitVec.ofNat 6 t.minute ++ 0#2 ++ BitVec.ofNat 6 t.second

/-- HWQ $20: the time in R0, R1, R2; three free words where the platform has no clock (R529, U9). -/
def State.hwqClock (s : State) : State :=
  if s.platform.rtcPresent then
    ((s.setReg 0 s.sbc.rtc.word0).setReg 1 s.sbc.rtc.word1).setReg 2 s.sbc.rtc.word2
  else ((s.freeReg 0).freeReg 1).freeReg 2

/-- HWQ $21: NVRAM_BYTES in (R2, R3); with no NVRAM R1 = MSG_ERROR and R2, R3 are free (R530, U7). -/
def State.hwqNvramSize (s : State) : State :=
  match s.platform.nvramBytes with
  | some bytes => (s.setReg 1 msgAck).setPair 1#2 bytes
  | none => ((s.setReg 1 msgError).freeReg 2).freeReg 3

/-- The NVRAM offset { R3, R2 } (R531). -/
def State.nvramOffset (s : State) : Nat := (s.pair 1#2).toNat

/-- The NVRAM has a byte at the offset (R531, R532). -/
def State.nvramHas (s : State) : Bool :=
  match s.platform.nvramBytes with
  | some bytes => decide (s.nvramOffset < bytes.toNat)
  | none => false

/-- HWQ $22: the low byte of R0 into the NVRAM; MSG_ERROR where it cannot be written (R531). -/
def State.hwqNvramWrite (s : State) : State :=
  if s.nvramHas && !s.sbc.nvramProtected && !s.sbc.nvramFailing then
    { s with sbc := { s.sbc with nvram := s.sbc.nvram.write s.nvramOffset ((s.reg 0).extractLsb' 0 8) } }.setReg 1 msgAck
  else s.setReg 1 msgError

/-- HWQ $23: a byte of the NVRAM into R0; else R1 = MSG_ERROR and R0 is free (R532, U7). -/
def State.hwqNvramRead (s : State) : State :=
  if s.nvramHas then (s.setReg 1 msgAck).setReg 0 (zeroExtendByte (s.sbc.nvram.read s.nvramOffset))
  else (s.setReg 1 msgError).freeReg 0

/-- HWQ #imm6: privileged; UndefFault for an index that is not defined; else the operation (R408, R535). -/
def execHwq (op : BitVec 6) (s : State) : Host.Outcome State Fault Refusal :=
  if s.inUser then .next (s.raiseFault .unpriv)
  else
    match op.toNat with
    | 0x00 => .next s.hwqSlots
    | 0x01 => .next s.hwqMemory
    | 0x02 => .next s.hwqDescribe
    | 0x03 => .next s.hwqMessage
    | 0x10 => .next s.hwqReadWindow
    | 0x11 => s.hwqWriteWindow
    | 0x12 => .next s.hwqReadConfig
    | 0x13 => .next s.hwqWriteConfig
    | 0x20 => .next s.hwqClock
    | 0x21 => .next s.hwqNvramSize
    | 0x22 => .next s.hwqNvramWrite
    | 0x23 => .next s.hwqNvramRead
    | _ => .next (s.raiseFault .undef)

end Sys2Proof.Machine
end

