-- ==== Sys2Proof/Machine/Jump.lean ====
section
/-! DEFINITION. Jumps, subroutines and branches (48_jump_branch.md). No flag changes; PC already holds the address of the next
instruction (00_scope.md R15). A bad target faults at the fetch that follows, not here (R370, R389). -/

namespace Sys2Proof.Machine

/-- JMP Rm (R370). -/
def execJmp (m : Reg) (s : State) : Host.Outcome State Fault Refusal := .next { s with pc := s.reg m }

/-- JSR Rm: PC pushed, then loaded from Rm; a push that faults leaves SP and PC unchanged (R371). -/
def execJsr (m : Reg) (s : State) : Host.Outcome State Fault Refusal :=
  .next ((s.pushWords s.ps.mode s.sp [s.pc]).bind fun sp t => .done () { t.setSp sp with pc := s.reg m }).settle

/-- RTS: PC popped (R372). -/
def execRts (s : State) : Host.Outcome State Fault Refusal :=
  .next ((s.readWord s.sp).bind fun v t => .done () { t.setSp (s.sp + 2#16) with pc := v }).settle

/-- BVS #Imm (R380). -/
def execBvs (imm : BitVec 9) (s : State) : Host.Outcome State Fault Refusal := .next (s.branchIf s.ps.v imm)

/-- BVC #Imm (R381). -/
def execBvc (imm : BitVec 9) (s : State) : Host.Outcome State Fault Refusal := .next (s.branchIf (!s.ps.v) imm)

/-- BCS #Imm (R382). -/
def execBcs (imm : BitVec 9) (s : State) : Host.Outcome State Fault Refusal := .next (s.branchIf s.ps.c imm)

/-- BCC #Imm (R383). -/
def execBcc (imm : BitVec 9) (s : State) : Host.Outcome State Fault Refusal := .next (s.branchIf (!s.ps.c) imm)

/-- BEQ #Imm (R384). -/
def execBeq (imm : BitVec 9) (s : State) : Host.Outcome State Fault Refusal := .next (s.branchIf s.ps.z imm)

/-- BNE #Imm (R385). -/
def execBne (imm : BitVec 9) (s : State) : Host.Outcome State Fault Refusal := .next (s.branchIf (!s.ps.z) imm)

/-- BMI #Imm (R386). -/
def execBmi (imm : BitVec 9) (s : State) : Host.Outcome State Fault Refusal := .next (s.branchIf s.ps.n imm)

/-- BPL #Imm (R387). -/
def execBpl (imm : BitVec 9) (s : State) : Host.Outcome State Fault Refusal := .next (s.branchIf (!s.ps.n) imm)

/-- BRA #Imm (R388). -/
def execBra (imm : BitVec 12) (s : State) : Host.Outcome State Fault Refusal := .next (s.branchIf true imm)

end Sys2Proof.Machine
end

