-- ==== Sys2Proof/Machine/LoadStore.lean ====
section
/-! DEFINITION. Loads and stores (40_load_store.md). A load sets N and Z from the value loaded (R238, D26, log 39); a store
changes no flag; an access that faults changes no register and no flag (60_exceptions.md R486). -/

namespace Sys2Proof.Machine

/-- A word load: Rd, N and Z from the word read (R220, R221, R224, R225, R233). -/
def Access.loadWord (x : Access Word) (d : Reg) : Access Unit := x.bind fun v t => .done () (t.putNZ d v)

/-- A byte load: the byte zero-extended into Rd, N and Z from it, so N is cleared (R222, R223, R234). -/
def Access.loadByte (x : Access Byte) (d : Reg) : Access Unit :=
  x.bind fun b t => .done () (t.putNZ d (zeroExtendByte b))

/-- LOD Rd, Rm, Rn (R220). -/
def execLodReg (d m n : Reg) (s : State) : Host.Outcome State Fault Refusal :=
  .next ((s.readWord (s.eaReg m n)).loadWord d).settle

/-- LOD Rd, Rm, #Imm3 (R221). -/
def execLodImm (d m : Reg) (imm : BitVec 3) (s : State) : Host.Outcome State Fault Refusal :=
  .next ((s.readWord (s.eaWordImm m imm)).loadWord d).settle

/-- LOD.B Rd, Rm, Rn (R222). -/
def execLodBReg (d m n : Reg) (s : State) : Host.Outcome State Fault Refusal :=
  .next ((s.readByte (s.eaReg m n)).loadByte d).settle

/-- LOD.B Rd, Rm, #Imm3 (R223). -/
def execLodBImm (d m : Reg) (imm : BitVec 3) (s : State) : Host.Outcome State Fault Refusal :=
  .next ((s.readByte (s.eaByteImm m imm)).loadByte d).settle

/-- LOD Rd, PC, #Imm6s (R224). -/
def execLodPc (d : Reg) (imm : BitVec 6) (s : State) : Host.Outcome State Fault Refusal :=
  .next ((s.readWord (s.eaPc imm)).loadWord d).settle

/-- LOD Rd, SP, #Imm6s (R225). -/
def execLodSp (d : Reg) (imm : BitVec 6) (s : State) : Host.Outcome State Fault Refusal :=
  .next ((s.readWord (s.eaSp imm)).loadWord d).settle

/-- STO Rd, Rm, Rn (R226). -/
def execStoReg (d m n : Reg) (s : State) : Host.Outcome State Fault Refusal :=
  .next (s.writeWord (s.eaReg m n) (s.reg d)).settle

/-- STO Rd, Rm, #Imm3 (R227). -/
def execStoImm (d m : Reg) (imm : BitVec 3) (s : State) : Host.Outcome State Fault Refusal :=
  .next (s.writeWord (s.eaWordImm m imm) (s.reg d)).settle

/-- STO.B Rd, Rm, Rn (R228). -/
def execStoBReg (d m n : Reg) (s : State) : Host.Outcome State Fault Refusal :=
  .next (s.writeByte (s.eaReg m n) ((s.reg d).extractLsb' 0 8)).settle

/-- STO.B Rd, Rm, #Imm3 (R229). -/
def execStoBImm (d m : Reg) (imm : BitVec 3) (s : State) : Host.Outcome State Fault Refusal :=
  .next (s.writeByte (s.eaByteImm m imm) ((s.reg d).extractLsb' 0 8)).settle

/-- STO Rd, PC, #Imm6s (R230). -/
def execStoPc (d : Reg) (imm : BitVec 6) (s : State) : Host.Outcome State Fault Refusal :=
  .next (s.writeWord (s.eaPc imm) (s.reg d)).settle

/-- STO Rd, SP, #Imm6s (R231). -/
def execStoSp (d : Reg) (imm : BitVec 6) (s : State) : Host.Outcome State Fault Refusal :=
  .next (s.writeWord (s.eaSp imm) (s.reg d)).settle

/-- LOU Rd, Rm: privileged, a user access (R232, R233, log 30). -/
def execLou (d m : Reg) (s : State) : Host.Outcome State Fault Refusal :=
  .next (s.ifSupervisor ((s.readWordAs .user .read (s.reg m)).loadWord d)).settle

/-- LOU.B Rd, Rm (R232, R234). -/
def execLouB (d m : Reg) (s : State) : Host.Outcome State Fault Refusal :=
  .next (s.ifSupervisor ((s.readByteAs .user (s.reg m)).loadByte d)).settle

/-- SOU Rd, Rm (R232, R235). -/
def execSou (d m : Reg) (s : State) : Host.Outcome State Fault Refusal :=
  .next (s.ifSupervisor (s.writeWordAs .user (s.reg m) (s.reg d))).settle

/-- SOU.B Rd, Rm (R232, R236). -/
def execSouB (d m : Reg) (s : State) : Host.Outcome State Fault Refusal :=
  .next (s.ifSupervisor (s.writeByteAs .user (s.reg m) ((s.reg d).extractLsb' 0 8))).settle

end Sys2Proof.Machine
end

