-- ==== Sys2Proof/Machine/Logic.lean ====
section
/-! DEFINITION. Binary logic, negate and compare (44_logic.md): no memory access, no exception. -/

namespace Sys2Proof.Machine

/-- AND Rd, Rm, Rn (R290). -/
def execAnd (d m n : Reg) (s : State) : Host.Outcome State Fault Refusal := .next (s.putNZ d (s.reg m &&& s.reg n))

/-- ORR Rd, Rm, Rn (R291). -/
def execOrr (d m n : Reg) (s : State) : Host.Outcome State Fault Refusal := .next (s.putNZ d (s.reg m ||| s.reg n))

/-- EOR Rd, Rm, Rn (R292). -/
def execEor (d m n : Reg) (s : State) : Host.Outcome State Fault Refusal := .next (s.putNZ d (s.reg m ^^^ s.reg n))

/-- NOT Rd, Rm (R293). -/
def execNot (d m : Reg) (s : State) : Host.Outcome State Fault Refusal := .next (s.putNZ d (~~~s.reg m))

/-- NEG Rd, Rm: V is set exactly for $8000, C unchanged (R294). -/
def execNeg (d m : Reg) (s : State) : Host.Outcome State Fault Refusal :=
  .next ((s.putNZ d (0#16 - s.reg m)).setV (decide (s.reg m = 0x8000#16)))

/-- CMP Rm, Rn: N, Z and C of the subtraction, no register written, V unchanged (R295). -/
def execCmpReg (m n : Reg) (s : State) : Host.Outcome State Fault Refusal :=
  let r := subFlags (s.reg m) (s.reg n) true
  .next ((s.setNZ r.value).setC r.c)

/-- CMP Rm, #Imm (R296). -/
def execCmpImm (m : Reg) (imm : BitVec 3) (s : State) : Host.Outcome State Fault Refusal :=
  let r := subFlags (s.reg m) (imm3 imm) true
  .next ((s.setNZ r.value).setC r.c)

end Sys2Proof.Machine
end

