-- ==== Sys2Proof/Machine/Math.lean ====
section
/-! DEFINITION. Math instructions (42_math.md). Sources are read before any destination is written. -/

namespace Sys2Proof.Machine

/-- ADD Rd, Rm, Rn (R250). -/
def execAdd (d m n : Reg) (s : State) : Host.Outcome State Fault Refusal :=
  .next (s.putAlu d (addFlags (s.reg m) (s.reg n) false))

/-- ADC Rd, Rm, Rn (R251). -/
def execAdc (d m n : Reg) (s : State) : Host.Outcome State Fault Refusal :=
  .next (s.putAlu d (addFlags (s.reg m) (s.reg n) s.ps.c))

/-- SUB Rd, Rm, Rn (R252). -/
def execSub (d m n : Reg) (s : State) : Host.Outcome State Fault Refusal :=
  .next (s.putAlu d (subFlags (s.reg m) (s.reg n) true))

/-- SBC Rd, Rm, Rn (R253). -/
def execSbc (d m n : Reg) (s : State) : Host.Outcome State Fault Refusal :=
  .next (s.putAlu d (subFlags (s.reg m) (s.reg n) s.ps.c))

/-- ADD Rd, #Imm (R254). -/
def execAddImm (d : Reg) (imm : BitVec 5) (s : State) : Host.Outcome State Fault Refusal :=
  .next (s.putAlu d (addFlags (s.reg d) (imm5i imm) false))

/-- ADC Rd, #Imm (R255). -/
def execAdcImm (d : Reg) (imm : BitVec 5) (s : State) : Host.Outcome State Fault Refusal :=
  .next (s.putAlu d (addFlags (s.reg d) (imm5i imm) s.ps.c))

/-- SUB Rd, #Imm (R256). -/
def execSubImm (d : Reg) (imm : BitVec 5) (s : State) : Host.Outcome State Fault Refusal :=
  .next (s.putAlu d (subFlags (s.reg d) (imm5i imm) true))

/-- SBC Rd, #Imm (R257). -/
def execSbcImm (d : Reg) (imm : BitVec 5) (s : State) : Host.Outcome State Fault Refusal :=
  .next (s.putAlu d (subFlags (s.reg d) (imm5i imm) s.ps.c))

/-- MUL Rd, Rm, Rn: the unsigned product into a pair; N cleared, V unchanged (R260). -/
def execMul (p : Pair) (m n : Reg) (s : State) : Host.Outcome State Fault Refusal :=
  .next (s.putProduct p (mulUnsigned (s.reg m) (s.reg n)) false)

/-- MLI Rd, Rm, Rn: the signed product into a pair; N its bit 31, V unchanged (R261). -/
def execMli (p : Pair) (m n : Reg) (s : State) : Host.Outcome State Fault Refusal :=
  let product := mulSigned (s.reg m) (s.reg n)
  .next (s.putProduct p product product.msb)

/-- DIV Rd, Rm, Rn: quotient and remainder into a pair; N cleared, Z from the quotient; DivZeroFault where Rn is 0
(R262, R264). -/
def execDiv (p : Pair) (m n : Reg) (s : State) : Host.Outcome State Fault Refusal :=
  if s.reg n = 0#16 then .next (s.raiseFault .divZero)
  else
    let (q, r) := divUnsigned (s.reg m) (s.reg n)
    .next (((s.putQuotient p q r).setN false).setZ (decide (q = 0#16)))

/-- DVI Rd, Rm, Rn (R263): truncating signed division; DivZeroFault where Rn is 0; for $8000 / $FFFF the quotient is $8000,
the remainder a free value and V is set (U5, log 44). -/
def execDvi (p : Pair) (m n : Reg) (s : State) : Host.Outcome State Fault Refusal :=
  if s.reg n = 0#16 then .next (s.raiseFault .divZero)
  else if s.reg m = 0x8000#16 ∧ s.reg n = 0xFFFF#16 then
    let (free, t) := s.drawWord
    .next ((((t.putQuotient p 0x8000#16 free).setN true).setZ false).setV true)
  else
    let (q, r) := divSigned (s.reg m) (s.reg n)
    .next ((((s.putQuotient p (BitVec.ofInt 16 q) (BitVec.ofInt 16 r)).setN (decide (q < 0))).setZ (decide (q = 0))).setV
      false)

end Sys2Proof.Machine
end

