-- ==== Sys2Proof/Machine/Move.lean ====
section
/-! DEFINITION. Moves (41_move.md) and register manipulation (43_register_manipulation.md): no flag changes, no memory access,
no exception. -/

namespace Sys2Proof.Machine

/-- MOV Rd, Rm (R240). -/
def execMov (d m : Reg) (s : State) : Host.Outcome State Fault Refusal := .next (s.setReg d (s.reg m))

/-- MVI.L Rd, #Imm: the low octet (R241). -/
def execMviL (d : Reg) (imm : BitVec 8) (s : State) : Host.Outcome State Fault Refusal :=
  .next (s.setReg d ((s.reg d).extractLsb' 8 8 ++ imm))

/-- MVI.H Rd, #Imm: the high octet (R242). -/
def execMviH (d : Reg) (imm : BitVec 8) (s : State) : Host.Outcome State Fault Refusal :=
  .next (s.setReg d (imm ++ (s.reg d).extractLsb' 0 8))

/-- REX.SB Rd: the low byte sign-extended (R280). -/
def execRexSb (d : Reg) (s : State) : Host.Outcome State Fault Refusal :=
  .next (s.setReg d (((s.reg d).extractLsb' 0 8).signExtend 16))

/-- REX.UB Rd: the low byte zero-extended (R281). -/
def execRexUb (d : Reg) (s : State) : Host.Outcome State Fault Refusal :=
  .next (s.setReg d (((s.reg d).extractLsb' 0 8).setWidth 16))

/-- REV.B Rd: the bytes swapped (R282). -/
def execRevB (d : Reg) (s : State) : Host.Outcome State Fault Refusal :=
  .next (s.setReg d ((s.reg d).extractLsb' 0 8 ++ (s.reg d).extractLsb' 8 8))

/-- REV.T Rd: the bits in reverse order (R283). -/
def execRevT (d : Reg) (s : State) : Host.Outcome State Fault Refusal := .next (s.setReg d (s.reg d).reverse)

end Sys2Proof.Machine
end

