-- ==== Sys2Proof/Machine/Shift.lean ====
section
/-! DEFINITION. Shifts and rotates (45_shift.md), in the register form, whose count saturates at 15 (R311), and in the
immediate form, whose count is 1 to 8 (R310). No memory access, no exception. -/

namespace Sys2Proof.Machine

/-- LSL Rd, Rm (R312: N, Z and C, V unchanged). -/
def execLslReg (d m : Reg) (s : State) : Host.Outcome State Fault Refusal :=
  let (r, c) := shiftLeft (s.reg d) (regCount (s.reg m))
  .next (s.putNZC d r c)

/-- LSL Rd, #Imm (R312: N, Z and C, V unchanged). -/
def execLslImm (d : Reg) (imm : BitVec 3) (s : State) : Host.Outcome State Fault Refusal :=
  let (r, c) := shiftLeft (s.reg d) (immCount imm)
  .next (s.putNZC d r c)

/-- LSR Rd, Rm (R313: N, Z and C, V unchanged). -/
def execLsrReg (d m : Reg) (s : State) : Host.Outcome State Fault Refusal :=
  let (r, c) := shiftRight (s.reg d) (regCount (s.reg m))
  .next (s.putNZC d r c)

/-- LSR Rd, #Imm (R313: N, Z and C, V unchanged). -/
def execLsrImm (d : Reg) (imm : BitVec 3) (s : State) : Host.Outcome State Fault Refusal :=
  let (r, c) := shiftRight (s.reg d) (immCount imm)
  .next (s.putNZC d r c)

/-- ASR Rd, Rm (R314: N, Z, C and V). -/
def execAsrReg (d m : Reg) (s : State) : Host.Outcome State Fault Refusal :=
  let (r, c) := shiftArith (s.reg d) (regCount (s.reg m))
  .next ((s.putNZC d r c).setV (arithOverflow (s.reg d) r))

/-- ASR Rd, #Imm (R314: N, Z, C and V). -/
def execAsrImm (d : Reg) (imm : BitVec 3) (s : State) : Host.Outcome State Fault Refusal :=
  let (r, c) := shiftArith (s.reg d) (immCount imm)
  .next ((s.putNZC d r c).setV (arithOverflow (s.reg d) r))

/-- RNL Rd, Rm (R315: N and Z, C and V unchanged). -/
def execRnlReg (d m : Reg) (s : State) : Host.Outcome State Fault Refusal :=
  .next (s.putNZ d (rotateLeft (s.reg d) (regCount (s.reg m))))

/-- RNL Rd, #Imm (R315: N and Z, C and V unchanged). -/
def execRnlImm (d : Reg) (imm : BitVec 3) (s : State) : Host.Outcome State Fault Refusal :=
  .next (s.putNZ d (rotateLeft (s.reg d) (immCount imm)))

/-- RNR Rd, Rm (R316: N and Z, C and V unchanged). -/
def execRnrReg (d m : Reg) (s : State) : Host.Outcome State Fault Refusal :=
  .next (s.putNZ d (rotateRight (s.reg d) (regCount (s.reg m))))

/-- RNR Rd, #Imm (R316: N and Z, C and V unchanged). -/
def execRnrImm (d : Reg) (imm : BitVec 3) (s : State) : Host.Outcome State Fault Refusal :=
  .next (s.putNZ d (rotateRight (s.reg d) (immCount imm)))

/-- ROL Rd, Rm (R317: N, Z and C, V unchanged). -/
def execRolReg (d m : Reg) (s : State) : Host.Outcome State Fault Refusal :=
  let (r, c) := rotateLeftCarry (s.reg d) s.ps.c (regCount (s.reg m))
  .next (s.putNZC d r c)

/-- ROL Rd, #Imm (R317: N, Z and C, V unchanged). -/
def execRolImm (d : Reg) (imm : BitVec 3) (s : State) : Host.Outcome State Fault Refusal :=
  let (r, c) := rotateLeftCarry (s.reg d) s.ps.c (immCount imm)
  .next (s.putNZC d r c)

/-- ROR Rd, Rm (R318: N, Z and C, V unchanged). -/
def execRorReg (d m : Reg) (s : State) : Host.Outcome State Fault Refusal :=
  let (r, c) := rotateRightCarry (s.reg d) s.ps.c (regCount (s.reg m))
  .next (s.putNZC d r c)

/-- ROR Rd, #Imm (R318: N, Z and C, V unchanged). -/
def execRorImm (d : Reg) (imm : BitVec 3) (s : State) : Host.Outcome State Fault Refusal :=
  let (r, c) := rotateRightCarry (s.reg d) s.ps.c (immCount imm)
  .next (s.putNZC d r c)

end Sys2Proof.Machine
end

