-- ==== Sys2Proof/Machine/Special.lean ====
section
/-! DEFINITION. Special register moves and page table entry access (49_control.md R401 to R407, R421). -/

namespace Sys2Proof.Machine

/-- The thirteen special registers (10_state.md R56). -/
inductive Special where
  | pc
  | ps
  | su
  | ss
  | vb
  | im
  | ic
  | fa
  | tu
  | ts
  | cl
  | cc
  | pf
deriving DecidableEq, Repr

/-- The register an index names; none for $0D to $1F (R56, D4, log 21). -/
def Special.ofIndex? (idx : BitVec 5) : Option Special :=
  match idx.toNat with
  | 0x00 => some .pc
  | 0x01 => some .ps
  | 0x02 => some .su
  | 0x03 => some .ss
  | 0x04 => some .vb
  | 0x05 => some .im
  | 0x06 => some .ic
  | 0x07 => some .fa
  | 0x08 => some .tu
  | 0x09 => some .ts
  | 0x0A => some .cl
  | 0x0B => some .cc
  | 0x0C => some .pf
  | _ => none

/-- The registers of index $03 to $0C, which user mode may not name (R56). -/
def Special.privileged : Special → Bool
  | .pc => false
  | .ps => false
  | .su => false
  | .ss => true
  | .vb => true
  | .im => true
  | .ic => true
  | .fa => true
  | .tu => true
  | .ts => true
  | .cl => true
  | .cc => true
  | .pf => true

/-- The 32-bit registers, which move through a pair (R57). -/
def Special.wide : Special → Bool
  | .tu => true
  | .ts => true
  | .cl => true
  | .cc => true
  | .pf => true
  | .pc => false
  | .ps => false
  | .su => false
  | .ss => false
  | .vb => false
  | .im => false
  | .ic => false
  | .fa => false

/-- The pair whose low register is the even register `d` (R57). -/
def pairOf (d : Reg) : Pair := d.extractLsb' 1 2

/-- The register that MRS or MSR may use, or the exception: first an index that names none, then privilege, then an odd
register with a 32-bit register (R401 to R403, log 22). -/
def State.checkSpecial (s : State) (idx : BitVec 5) (d : Reg) : Except FaultCause Special :=
  match Special.ofIndex? idx with
  | none => .error .undef
  | some r =>
    if s.inUser && r.privileged then .error .unpriv
    else if r.wide && d.getLsbD 0 then .error .undef
    else .ok r

/-- The value MRS reads; a 16-bit register zero-extended (R402). -/
def State.special (s : State) (r : Special) : DWord :=
  match r with
  | .pc => s.pc.setWidth 32
  | .ps => s.ps.readable.setWidth 32
  | .su => s.su.setWidth 32
  | .ss => s.ss.setWidth 32
  | .vb => s.vb.setWidth 32
  | .im => s.im.toWord.setWidth 32
  | .ic => s.ic.setWidth 32
  | .fa => s.fa.setWidth 32
  | .tu => s.tu
  | .ts => s.ts
  | .cl => s.cl
  | .cc => s.cc
  | .pf => pfValue

/-- MRS Rd, S (R402): one general register for a 16-bit register, a pair for a 32-bit one. -/
def execMrs (d : Reg) (idx : BitVec 5) (s : State) : Host.Outcome State Fault Refusal :=
  match s.checkSpecial idx d with
  | .error e => .next (s.raiseFault e)
  | .ok r =>
    if r.wide then .next (s.setPair (pairOf d) (s.special r))
    else .next (s.setReg d ((s.special r).setWidth 16))

/-- What MSR writes (R403): a 16-bit register takes `v`, a 32-bit one `w`; user mode writes only the flags of PS; a
supervisor value with PS.P = 10 or 11 has no next state (U3); PF takes nothing (D12, log 29). -/
def State.writeSpecial (s : State) (r : Special) (v : Word) (w : DWord) : Host.Outcome State Fault Refusal :=
  match r with
  | .pc => .next { s with pc := v }
  | .ps =>
    match s.ps.write? v with
    | some status => .next { s with ps := status }
    | none => .refused .reservedMode
  | .su => .next { s with su := v }
  | .ss => .next { s with ss := v }
  | .vb => .next { s with vb := v }
  | .im => .next { s with im := IntMask.ofWord v }
  | .ic => .next { s with ic := v }
  | .fa => .next { s with fa := v }
  | .tu => .next { s with tu := w }
  | .ts => .next { s with ts := w }
  | .cl => .next { s with cl := w }
  | .cc => .next { s with cc := w }
  | .pf => .next s

/-- MSR S, Rd (R403). -/
def execMsr (d : Reg) (idx : BitVec 5) (s : State) : Host.Outcome State Fault Refusal :=
  match s.checkSpecial idx d with
  | .error e => .next (s.raiseFault e)
  | .ok r => s.writeSpecial r (s.reg d) (s.pair (pairOf d))

/-- The index of the user page table entry: the top four bits of Rm for `.V`, the whole of Rm for `.I`, which must not
exceed 15 (R421). -/
def entryIndex (byIndex : Bool) (x : Word) : Option (BitVec 4) :=
  if byIndex then (if x.toNat ≤ 15 then some (x.extractLsb' 0 4) else none) else some (x.extractLsb' 12 4)

/-- The physical address of the user page table entry, or the PageFault: IC = $0020 for a bad TU, IC = $0000 for an index
above 15, FA = Rm in both (R421, D22, log 36). -/
def State.userEntry (s : State) (byIndex : Bool) (x : Word) : Access DWord :=
  if s.tu.extractLsb' 0 2 = 0#2 then
    match entryIndex byIndex x with
    | some idx => .done (entryAddress s.tu idx) s
    | none => .abort (.page 0x0000#16 x) s
  else .abort (.page 0x0020#16 x) s

/-- The load of an entry into a pair, with no translation (R404, R405, 20_memory.md R132). -/
def State.loadEntry (s : State) (byIndex : Bool) (p : Pair) (m : Reg) : Access Unit :=
  s.ifSupervisor ((s.userEntry byIndex (s.reg m)).bind fun addr t =>
    let (pte, u) := t.physRead4 addr
    .done () (u.setPair p pte))

/-- The store of a pair into an entry, with no translation (R406, R407, 20_memory.md R132). -/
def State.storeEntry (s : State) (byIndex : Bool) (p : Pair) (m : Reg) : Access Unit :=
  s.ifSupervisor ((s.userEntry byIndex (s.reg m)).bind fun addr t => .done () (t.physWrite4 addr (s.pair p)))

/-- PTL.V Rd, Rm (R404). -/
def execPtlV (p : Pair) (m : Reg) (s : State) : Host.Outcome State Fault Refusal := .next (s.loadEntry false p m).settle

/-- PTL.I Rd, Rm (R405). -/
def execPtlI (p : Pair) (m : Reg) (s : State) : Host.Outcome State Fault Refusal := .next (s.loadEntry true p m).settle

/-- PTS.V Rd, Rm (R406). -/
def execPtsV (p : Pair) (m : Reg) (s : State) : Host.Outcome State Fault Refusal := .next (s.storeEntry false p m).settle

/-- PTS.I Rd, Rm (R407). -/
def execPtsI (p : Pair) (m : Reg) (s : State) : Host.Outcome State Fault Refusal := .next (s.storeEntry true p m).settle

end Sys2Proof.Machine
end

