-- ==== Sys2Proof/Machine/Stack.lean ====
section
/-! DEFINITION. Stack instructions (47_stack.md): STS, STR and STX. No flag changes but by restoring PS. An empty mask selects
nothing and changes nothing (R355, D15, log 32). A fault on any access leaves every register and SP unchanged
(60_exceptions.md R486). -/

namespace Sys2Proof.Machine

/-- A list of the thing where the mask bit selects it, else empty. -/
def selectIf {α : Type} (selected : Bool) (x : α) : List α := if selected then [x] else []

/-- The members of a group that the mask selects, in ascending order (R356). -/
def selectAscending {α : Type} (mask : BitVec 4) (m0 m1 m2 m3 : α) : List α :=
  selectIf (mask.getLsbD 0) m0 ++ selectIf (mask.getLsbD 1) m1 ++ selectIf (mask.getLsbD 2) m2
    ++ selectIf (mask.getLsbD 3) m3

/-- The members of a group that the mask selects, in descending order (R356). -/
def selectDescending {α : Type} (mask : BitVec 4) (m0 m1 m2 m3 : α) : List α :=
  selectIf (mask.getLsbD 3) m3 ++ selectIf (mask.getLsbD 2) m2 ++ selectIf (mask.getLsbD 1) m1
    ++ selectIf (mask.getLsbD 0) m0

/-- Values pushed onto the current stack, SP committed after the last push (R350, R351). -/
def State.stash (s : State) (values : List Word) : Access Unit :=
  (s.pushWords s.ps.mode s.sp values).bind fun sp t => .done () (t.setSp sp)

/-- Values into registers, one by one. -/
def State.setRegs (s : State) : List Reg → List Word → State
  | r :: rs, v :: vs => (s.setReg r v).setRegs rs vs
  | [], _ => s
  | _ :: _, [] => s

/-- Registers popped from the current stack in the order listed; all pops come before any register is written (R352). -/
def State.restore (s : State) (rs : List Reg) : Access Unit :=
  (s.popWords s.ps.mode s.sp rs.length).bind fun values t =>
    .done () ((t.setRegs rs values).setSp (s.sp + 2#16 * BitVec.ofNat 16 rs.length))

/-- STS, group 0: R0 to R3 (R350). -/
def execStsLow (mask : BitVec 4) (s : State) : Host.Outcome State Fault Refusal :=
  .next (s.stash (selectAscending mask (s.reg 0) (s.reg 1) (s.reg 2) (s.reg 3))).settle

/-- STS, group 1: R4 to R7 (R350). -/
def execStsHigh (mask : BitVec 4) (s : State) : Host.Outcome State Fault Refusal :=
  .next (s.stash (selectAscending mask (s.reg 4) (s.reg 5) (s.reg 6) (s.reg 7))).settle

/-- What STS pushes for SS: SS itself, and SU in user mode (R351). -/
def State.readableSs (s : State) : Word := s.sp

/-- STS, group 2: PC, PS, SU, SS as they are when the instruction starts; user mode pushes the flags only for PS and SU in
place of SS (R351, D14, log 31). -/
def execStsSpecial (mask : BitVec 4) (s : State) : Host.Outcome State Fault Refusal :=
  .next (s.stash (selectAscending mask s.pc s.ps.readable s.su s.readableSs)).settle

/-- STR, group 0: R0 to R3 (R352). -/
def execStrLow (mask : BitVec 4) (s : State) : Host.Outcome State Fault Refusal :=
  .next (s.restore (selectDescending mask 0 1 2 3)).settle

/-- STR, group 1: R4 to R7 (R352). -/
def execStrHigh (mask : BitVec 4) (s : State) : Host.Outcome State Fault Refusal :=
  .next (s.restore (selectDescending mask 4 5 6 7)).settle

/-- The next popped word for a member, if the mask selects it, and the words left. -/
def takeIf (selected : Bool) (words : List Word) : Option Word × List Word :=
  if selected then (words.head?, words.tail) else (none, words)

/-- The commit of STR, group 2 (R353): the incremented pointer, then the popped SS (SU in user mode), SU, PS and PC; no
next state where the popped PS has PS.P = 10 or 11 in supervisor mode (U3). -/
def State.commitSpecial (s : State) (mask : BitVec 4) (sp : Word) (words : List Word) :
    Host.Outcome State Fault Refusal :=
  let (v3, words) := takeIf (mask.getLsbD 3) words
  let (v2, words) := takeIf (mask.getLsbD 2) words
  let (v1, words) := takeIf (mask.getLsbD 1) words
  let (v0, _) := takeIf (mask.getLsbD 0) words
  let s1 := s.setSp (v3.getD sp)
  let s2 := { s1 with su := v2.getD s1.su, pc := v0.getD s1.pc }
  match v1 with
  | none => .next s2
  | some w =>
    match s.ps.write? w with
    | some status => .next { s2 with ps := status }
    | none => .refused .reservedMode

/-- STR, group 2: SS, SU, PS, PC popped with the mode, stack pointer and page table in force at the start, then committed
(R353, D14, log 31). -/
def execStrSpecial (mask : BitVec 4) (s : State) : Host.Outcome State Fault Refusal :=
  let count := (selectDescending mask () () () ()).length
  match s.popWords s.ps.mode s.sp count with
  | .done words t => t.commitSpecial mask (s.sp + 2#16 * BitVec.ofNat 16 count) words
  | .abort e t => .next (t.raiseFault e)

/-- STX #Imm8s: SP moved by words, no access (R354). -/
def execStx (imm : BitVec 8) (s : State) : Host.Outcome State Fault Refusal := .next (s.setSp (s.sp + wordOffset imm))

end Sys2Proof.Machine
end

