-- ==== Sys2Proof/Machine/Dispatch.lean ====
section
/-! DEFINITION. The meaning of every instruction, one arm each. PC already holds the address of the next instruction
(00_scope.md R15). -/

namespace Sys2Proof.Machine

/-- One instruction executed (10_state.md R36). -/
def exec (i : Instr) (s : State) : Host.Outcome State Fault Refusal :=
  match i with
  | .add d m n => Sys2Proof.Machine.execAdd d m n s
  | .adc d m n => Sys2Proof.Machine.execAdc d m n s
  | .sub d m n => Sys2Proof.Machine.execSub d m n s
  | .sbc d m n => Sys2Proof.Machine.execSbc d m n s
  | .mul p m n => Sys2Proof.Machine.execMul p m n s
  | .mli p m n => Sys2Proof.Machine.execMli p m n s
  | .div p m n => Sys2Proof.Machine.execDiv p m n s
  | .dvi p m n => Sys2Proof.Machine.execDvi p m n s
  | .btt d imm => Sys2Proof.Machine.execBtt d imm s
  | .bttM d imm => Sys2Proof.Machine.execBttM d imm s
  | .btx d imm => Sys2Proof.Machine.execBtx d imm s
  | .btxM d imm => Sys2Proof.Machine.execBtxM d imm s
  | .btc d imm => Sys2Proof.Machine.execBtc d imm s
  | .btcM d imm => Sys2Proof.Machine.execBtcM d imm s
  | .bts d imm => Sys2Proof.Machine.execBts d imm s
  | .btsM d imm => Sys2Proof.Machine.execBtsM d imm s
  | .mviL d imm => Sys2Proof.Machine.execMviL d imm s
  | .mviH d imm => Sys2Proof.Machine.execMviH d imm s
  | .lodBReg d m n => Sys2Proof.Machine.execLodBReg d m n s
  | .lodBImm d m imm => Sys2Proof.Machine.execLodBImm d m imm s
  | .lodReg d m n => Sys2Proof.Machine.execLodReg d m n s
  | .lodImm d m imm => Sys2Proof.Machine.execLodImm d m imm s
  | .lodPc d imm => Sys2Proof.Machine.execLodPc d imm s
  | .lodSp d imm => Sys2Proof.Machine.execLodSp d imm s
  | .stoBReg d m n => Sys2Proof.Machine.execStoBReg d m n s
  | .stoBImm d m imm => Sys2Proof.Machine.execStoBImm d m imm s
  | .stoReg d m n => Sys2Proof.Machine.execStoReg d m n s
  | .stoImm d m imm => Sys2Proof.Machine.execStoImm d m imm s
  | .stoPc d imm => Sys2Proof.Machine.execStoPc d imm s
  | .stoSp d imm => Sys2Proof.Machine.execStoSp d imm s
  | .lslReg d m => Sys2Proof.Machine.execLslReg d m s
  | .lslImm d imm => Sys2Proof.Machine.execLslImm d imm s
  | .rolReg d m => Sys2Proof.Machine.execRolReg d m s
  | .rolImm d imm => Sys2Proof.Machine.execRolImm d imm s
  | .rnlReg d m => Sys2Proof.Machine.execRnlReg d m s
  | .rnlImm d imm => Sys2Proof.Machine.execRnlImm d imm s
  | .asrReg d m => Sys2Proof.Machine.execAsrReg d m s
  | .asrImm d imm => Sys2Proof.Machine.execAsrImm d imm s
  | .lsrReg d m => Sys2Proof.Machine.execLsrReg d m s
  | .lsrImm d imm => Sys2Proof.Machine.execLsrImm d imm s
  | .rorReg d m => Sys2Proof.Machine.execRorReg d m s
  | .rorImm d imm => Sys2Proof.Machine.execRorImm d imm s
  | .rnrReg d m => Sys2Proof.Machine.execRnrReg d m s
  | .rnrImm d imm => Sys2Proof.Machine.execRnrImm d imm s
  | .cmpReg m n => Sys2Proof.Machine.execCmpReg m n s
  | .cmpImm m imm => Sys2Proof.Machine.execCmpImm m imm s
  | .addImm d imm => Sys2Proof.Machine.execAddImm d imm s
  | .adcImm d imm => Sys2Proof.Machine.execAdcImm d imm s
  | .subImm d imm => Sys2Proof.Machine.execSubImm d imm s
  | .sbcImm d imm => Sys2Proof.Machine.execSbcImm d imm s
  | .mov d m => Sys2Proof.Machine.execMov d m s
  | .neg d m => Sys2Proof.Machine.execNeg d m s
  | .rexSb d => Sys2Proof.Machine.execRexSb d s
  | .rexUb d => Sys2Proof.Machine.execRexUb d s
  | .revB d => Sys2Proof.Machine.execRevB d s
  | .revT d => Sys2Proof.Machine.execRevT d s
  | .notReg d m => Sys2Proof.Machine.execNot d m s
  | .andReg d m n => Sys2Proof.Machine.execAnd d m n s
  | .orrReg d m n => Sys2Proof.Machine.execOrr d m n s
  | .eorReg d m n => Sys2Proof.Machine.execEor d m n s
  | .stsLow mask => Sys2Proof.Machine.execStsLow mask s
  | .stsHigh mask => Sys2Proof.Machine.execStsHigh mask s
  | .stsSpecial mask => Sys2Proof.Machine.execStsSpecial mask s
  | .strLow mask => Sys2Proof.Machine.execStrLow mask s
  | .strHigh mask => Sys2Proof.Machine.execStrHigh mask s
  | .strSpecial mask => Sys2Proof.Machine.execStrSpecial mask s
  | .brk imm => Sys2Proof.Machine.execBrk imm s
  | .rts => Sys2Proof.Machine.execRts s
  | .rti => Sys2Proof.Machine.execRti s
  | .swi => Sys2Proof.Machine.execSwi s
  | .slp => Sys2Proof.Machine.execSlp s
  | .nop => Sys2Proof.Machine.execNop s
  | .sfv => Sys2Proof.Machine.execSfv s
  | .cfv => Sys2Proof.Machine.execCfv s
  | .sfc => Sys2Proof.Machine.execSfc s
  | .cfc => Sys2Proof.Machine.execCfc s
  | .sfz => Sys2Proof.Machine.execSfz s
  | .cfz => Sys2Proof.Machine.execCfz s
  | .sfn => Sys2Proof.Machine.execSfn s
  | .cfn => Sys2Proof.Machine.execCfn s
  | .mrs d idx => Sys2Proof.Machine.execMrs d idx s
  | .msr d idx => Sys2Proof.Machine.execMsr d idx s
  | .jmp m => Sys2Proof.Machine.execJmp m s
  | .jsr m => Sys2Proof.Machine.execJsr m s
  | .hwq imm => Sys2Proof.Machine.execHwq imm s
  | .ptlV p m => Sys2Proof.Machine.execPtlV p m s
  | .ptlI p m => Sys2Proof.Machine.execPtlI p m s
  | .ptsV p m => Sys2Proof.Machine.execPtsV p m s
  | .ptsI p m => Sys2Proof.Machine.execPtsI p m s
  | .stx imm => Sys2Proof.Machine.execStx imm s
  | .louB d m => Sys2Proof.Machine.execLouB d m s
  | .lou d m => Sys2Proof.Machine.execLou d m s
  | .souB d m => Sys2Proof.Machine.execSouB d m s
  | .sou d m => Sys2Proof.Machine.execSou d m s
  | .bvs imm => Sys2Proof.Machine.execBvs imm s
  | .bvc imm => Sys2Proof.Machine.execBvc imm s
  | .bcs imm => Sys2Proof.Machine.execBcs imm s
  | .bcc imm => Sys2Proof.Machine.execBcc imm s
  | .beq imm => Sys2Proof.Machine.execBeq imm s
  | .bne imm => Sys2Proof.Machine.execBne imm s
  | .bmi imm => Sys2Proof.Machine.execBmi imm s
  | .bpl imm => Sys2Proof.Machine.execBpl imm s
  | .bra imm => Sys2Proof.Machine.execBra imm s

end Sys2Proof.Machine
end

