-- ==== Sys2Proof/Machine/Cycle.lean ====
section
/-! DEFINITION. The instruction cycle (10_state.md R36; 60_exceptions.md R496, R500), and placing a program word where the next
fetch reads it. -/

namespace Sys2Proof.Machine

/-- The state right after a fetch: PC advanced by 2, modulo 2^16 (R34, R35). -/
def State.advance (s : State) : State := { s with pc := s.pc + 2#16 }

/-- The outcome with CL advanced by the instruction's cycles (R36, R585, log 17, log 48). -/
def chargeCycles (i : Instr) (o : Host.Outcome State Fault Refusal) : Host.Outcome State Fault Refusal :=
  match o with
  | .next t => .next (t.tick (Config.cycles i))
  | .fault f => .fault f
  | .refused r => .refused r

/-- A fetched word executed: a reserved word is an UndefFault (30_encoding.md R190, R191), else the instruction's meaning
at A + 2. -/
def State.runWord (s : State) (w : Word) : Host.Outcome State Fault Refusal :=
  match decode w with
  | .error _ => .next (s.advance.raiseFault .undef).idleTick
  | .ok i => chargeCycles i (exec i s.advance)

/-- Fetch and execute; a fetch that faults leaves PC where it was (R36). -/
def State.runNext (s : State) : Host.Outcome State Fault Refusal :=
  match s.fetch s.pc with
  | .abort e t => .next (t.raiseFault e).idleTick
  | .done w t => t.runWord w

/-- One step of the instruction cycle: what the environment did, then what the boundary allows (R36, R500). -/
def State.cycle (s : State) : Host.Outcome State Fault Refusal :=
  let t := s.takeInputs
  match t.boundary with
  | .reset => .next t.resetSequence
  | .debugQuery => .next ({ t with debugLatch := false }.interruptStep .debugQuery 0x0000#16)
  | .timer => .next (t.interruptStep .timer 0x0000#16)
  | .hwi slot => .next (t.interruptStep .hwi (BitVec.ofNat 16 slot))
  | .sleep => .next t.idleTick
  | .run => t.runNext

/-- A byte put into RAM or ROM from outside the machine (log 9); nothing elsewhere. -/
def State.pokeByte (s : State) (a : DWord) (v : Byte) : State :=
  match s.kindAt a with
  | .ram => { s with ram := s.ram.write a.toNat v }
  | .rom => { s with rom := s.rom.write a.toNat v }
  | .window _ => s
  | .unconnected => s

/-- A program word put where the next fetch at PC reads it, low byte first, on a platform that has memory there (log 9);
nothing changes where that fetch would fault. -/
def State.placeWord (s : State) (w : Word) : State :=
  match s.translateWord s.ps.mode .exec s.pc with
  | .done pa _ =>
    let t := { s with platform := s.platform.connectWord pa.toNat }
    (t.pokeByte pa (w.extractLsb' 0 8)).pokeByte (pa + 1#32) (w.extractLsb' 8 8)
  | .abort _ _ => s

end Sys2Proof.Machine
end

