-- ==== Sys2Proof/Machine/Step.lean ====
section
/-! DEFINITION. One step of the machine, and the host's way of placing an instruction. -/

namespace Sys2Proof.Machine

/-- One step: what happens between two instruction boundaries (10_state.md R36). -/
def step (s : State) : Host.Outcome State Fault Refusal := s.cycle

/-- The state with the program word `w` (its low `nbits` bits, at most 16) stored in RAM or ROM where the next step
fetches; it stands for a program loaded from outside the machine, on a platform with memory there (log 9). -/
def State.withFetchWord (s : State) (nbits w : Nat) : State := s.placeWord (BitVec.ofNat 16 (w % 2 ^ nbits))

end Sys2Proof.Machine
end

