-- ==== Sys2Proof/Safety.lean ====
section
/-! DEFINITION. The terms statements use: the invariant of the machine, when an access is permitted and what address it
reaches, written from the spec's formulas and apart from Machine/Ops.lean, and what an access may change. -/

namespace Sys2Proof.Machine

/-! ## The invariant -/

/-- Every listed window is one HWQ $11 accepts, and meets neither memory nor another slot's window (60_exceptions.md R526,
U8). -/
def Sbc.windowsOk (c : Sbc) (p : Platform) : Bool :=
  c.windows.all fun e =>
    p.windowAccepted e.1 e.2 && !p.meetsMemory e.2.start e.2.bytes && !meetsOtherWindow c.windows e.1 e.2

/-- Interrupt configurations are held for present slots only (R528, R533). -/
def Sbc.configsOk (c : Sbc) (p : Platform) : Bool := c.configs.all fun e => p.present e.1

/-- The NVRAM lists only offsets below its size (R531). -/
def Sbc.nvramOk (c : Sbc) (p : Platform) : Bool :=
  c.nvram.all fun e => match p.nvramBytes with
    | some bytes => decide (e.1 < bytes.toNat)
    | none => false

/-- RAM lists only addresses that are RAM (20_memory.md R108). -/
def State.ramOk (s : State) : Bool := s.ram.all fun e => decide (e.1 < 2 ^ 32) && s.platform.isRam e.1

/-- All sparse contents are in canonical form. -/
def State.canonical (s : State) : Bool :=
  s.ram.wf && s.rom.wf && s.sbc.nvram.wf && sparseWf noWindow s.sbc.windows && sparseWf 0#4 s.sbc.configs
    && sparseWf false s.sbc.irq

/-- The invariant of the machine: canonical contents; RAM holds only RAM addresses; windows legal and disjoint; interrupt
configurations and NVRAM bytes only where the platform has them; at most 65535 slots (92_eei_decisions.md). -/
def State.inv (s : State) : Bool :=
  s.canonical && s.ramOk && s.sbc.windowsOk s.platform && s.sbc.configsOk s.platform && s.sbc.nvramOk s.platform
    && decide (s.platform.slotCount ≤ 65535)

/-! ## What an access may change -/

/-- The two states differ at most in RAM and in the free-value counter. -/
def SameButMemory (s t : State) : Prop := t = { s with ram := t.ram, draws := t.draws }

/-- Outside the bytes `touched`, memory reads in `t` as in `s`. -/
def SameBytesOutside (s t : State) (touched : DWord → Prop) : Prop :=
  ∀ a : DWord, ¬touched a → t.byteAt a = s.byteAt a

/-- All memory reads in `t` as in `s`. -/
def SameBytes (s t : State) : Prop := ∀ a : DWord, t.byteAt a = s.byteAt a

/-- One of the `n` bytes from `start` up. -/
def InRange (start : DWord) (n : Nat) (a : DWord) : Prop := (a - start).toNat < n

/-- General registers and flags are the same in both states. -/
def SameRegsAndFlags (s t : State) : Prop :=
  t.regs = s.regs ∧ t.ps.n = s.ps.n ∧ t.ps.z = s.ps.z ∧ t.ps.c = s.ps.c ∧ t.ps.v = s.ps.v

/-! ## Physical memory -/

/-- The byte is not in a device window (20_memory.md R108). -/
def State.ownByte (s : State) (a : DWord) : Bool :=
  match s.kindAt a with
  | .ram => true
  | .rom => true
  | .unconnected => true
  | .window _ => false

/-- Neither byte of the word is in a device window. -/
def State.ownWord (s : State) (a : DWord) : Bool := s.ownByte a && s.ownByte (a + 1#32)

/-- Both bytes of the word are RAM. -/
def State.ramWord (s : State) (a : DWord) : Bool := decide (s.kindAt a = .ram) && decide (s.kindAt (a + 1#32) = .ram)

/-- The little-endian word memory holds at a physical address (R100). -/
def State.wordAt (s : State) (a : DWord) : Word := s.byteAt (a + 1#32) ++ s.byteAt a

/-- The little-endian 32-bit value memory holds at a physical address (R101). -/
def State.dwordAt (s : State) (a : DWord) : DWord :=
  s.byteAt (a + 3#32) ++ s.byteAt (a + 2#32) ++ s.byteAt (a + 1#32) ++ s.byteAt a

/-- None of the four bytes is in a device window. -/
def State.ownDWord (s : State) (a : DWord) : Bool := s.ownWord a && s.ownWord (a + 2#32)

/-! ## Translation, as R120 to R126 say it -/

/-- pte_addr = (T & $FFFFFFC0) + 4 * va[15:12] (R120). -/
def State.pteAddress (s : State) (p : Privilege) (va : Word) : DWord :=
  (s.tableRegister p &&& 0xFFFFFFC0#32) + 4#32 * (va >>> 12).setWidth 32

/-- The entry that translates `va` (R120). -/
def State.pte (s : State) (p : Privilege) (va : Word) : DWord := s.dwordAt (s.pteAddress p va)

/-- The base register has the implemented format, s = 00 (R121). -/
def State.tableFormatOk (s : State) (p : Privilege) : Bool := decide (s.tableRegister p &&& 3#32 = 0#32)

/-- The page table entry for `va` is in memory, not in a device window. -/
def State.pteOwn (s : State) (p : Privilege) (va : Word) : Bool := s.ownDWord (s.pteAddress p va)

/-- The entry permits an access of privilege `p` and kind `k` (R124). -/
def ptePermits (p : Privilege) (k : AccessKind) (e : DWord) : Bool :=
  e.getLsbD 0 && (decide (p ≠ .user) || e.getLsbD 5) && (decide (k ≠ .write) || e.getLsbD 1)
    && (decide (k ≠ .exec) || e.getLsbD 2)

/-- The access succeeds (R112, R120, R124), its page table entry being in memory. -/
def State.allows (s : State) (p : Privilege) (k : AccessKind) (va : Word) : Bool :=
  !s.ps.mmu || (s.tableFormatOk p && s.pteOwn p va && ptePermits p k (s.pte p va))

/-- The access raises a PageFault (R120, R121), its page table entry, where one is read, being in memory. -/
def State.denies (s : State) (p : Privilege) (k : AccessKind) (va : Word) : Bool :=
  s.ps.mmu && (!s.tableFormatOk p || (s.pteOwn p va && !ptePermits p k (s.pte p va)))

/-- The physical address a permitted access reaches (R112, R120). -/
def State.physical (s : State) (p : Privilege) (va : Word) : DWord :=
  if s.ps.mmu then (s.pte p va &&& 0xFFFFF000#32) ||| (va &&& 0x0FFF#16).setWidth 32 else va.setWidth 32

/-- The entry with A set, and D for a write (R126). -/
def State.touchedPte (s : State) (p : Privilege) (k : AccessKind) (va : Word) : DWord :=
  s.pte p va ||| 0x10#32 ||| (if k = .write then 0x08#32 else 0#32)

/-- The state after a permitted translation: the entry written back if a bit changed (R126). -/
def State.touched (s : State) (p : Privilege) (k : AccessKind) (va : Word) : State :=
  if s.ps.mmu && decide (s.touchedPte p k va ≠ s.pte p va) then
    s.physWrite4 (s.pteAddress p va) (s.touchedPte p k va)
  else s

/-- The page table entry's four bytes, where translation is on. -/
def State.pteBytes (s : State) (p : Privilege) (va : Word) (a : DWord) : Prop :=
  s.ps.mmu = true ∧ InRange (s.pteAddress p va) 4 a

/-- One bit of a cause word. -/
def causeBit (on : Bool) (k : Nat) : Word := if on then 1#16 <<< k else 0#16

/-- The cause word of a refused access by the table of R125. -/
def State.pageFaultCause (s : State) (p : Privilege) (k : AccessKind) (va : Word) : Word :=
  let user := decide (p = .user) && decide (s.ps.mode = .user)
  if s.tableFormatOk p then
    let e := s.pte p va
    causeBit user 0 ||| causeBit (!e.getLsbD 0) 1
      ||| causeBit (decide (k = .write) && (!e.getLsbD 0 || !e.getLsbD 1)) 2
      ||| causeBit (decide (k = .exec) && (!e.getLsbD 0 || !e.getLsbD 2)) 3
      ||| causeBit (e.getLsbD 0 && decide (p = .user) && !e.getLsbD 5) 4
  else causeBit user 0 ||| causeBit true 5

/-! ## Taking an exception, as R480 says it, with the MMU off -/

/-- The MMU is off, SS and VB are even and the vector's entry is not in a device window: the entry meets no fault. -/
def State.entryPlain (s : State) (i : Interrupt) : Bool :=
  !s.ps.mmu && !s.ss.getLsbD 0 && !s.vb.getLsbD 0 && s.ownWord ((s.vb + 2#16 * i.vector).setWidth 32)

/-- The three words of the frame stored below SS (R480 step 5). -/
def State.framed (s : State) : State :=
  ((s.physWrite2 ((s.ss - 2#16).setWidth 32) s.pc).physWrite2 ((s.ss - 4#16).setWidth 32) s.ps.toWord).physWrite2
    ((s.ss - 6#16).setWidth 32) s.ic

/-- The state in the handler of a plain entry (R480): `level` is the new PS.L. -/
def State.entered (s : State) (i : Interrupt) (cause : Word) (level : BitVec 3) : State :=
  { s.framed with
    ps := { s.ps with mode := .supervisor, level := level }
    ss := s.ss - 6#16
    ic := cause
    im := { s.im with clock := s.im.clock && decide (i ≠ .timer) }
    pc := s.framed.wordAt ((s.vb + 2#16 * i.vector).setWidth 32)
    asleep := false }

/-! ## What a load, a store or a stack access of one instruction does -/

/-- The instruction raises AlignFault at an odd address (20_memory.md R105). -/
def TrapsMisaligned (i : Instr) (s : State) (ea : Word) : Prop :=
  ea.getLsbD 0 = true → exec i s = .next (s.raiseFault .align)

/-- The instruction raises a PageFault where the page refuses the access: IC by R125, FA the address. -/
def TrapsRefused (i : Instr) (s : State) (p : Privilege) (k : AccessKind) (ea : Word) : Prop :=
  s.denies p k ea = true → exec i s = .next (s.raiseFault (.page (s.pageFaultCause p k ea) ea))

/-- The bytes a store of `n` bytes at `ea` may change: those stored to, and the page table entry's A and D bits (R126). -/
def State.storeBytes (s : State) (p : Privilege) (ea : Word) (n : Nat) (a : DWord) : Prop :=
  InRange (s.physical p ea) n a ∨ s.pteBytes p ea a

/-- The instruction loads the word at `ea` into `d` with N and Z from it (40_load_store.md R220, R238); from a device window
it loads some value. All memory but the page table entry reads as before. -/
def LoadsWord (i : Instr) (s : State) (p : Privilege) (ea : Word) (d : Reg) : Prop :=
  TrapsMisaligned i s ea ∧
  (ea.getLsbD 0 = false → TrapsRefused i s p .read ea) ∧
  (ea.getLsbD 0 = false → s.allows p .read ea = true →
    SameBytesOutside s (s.touched p .read ea) (s.pteBytes p ea) ∧
    ∃ (v : Word) (n : Nat),
      (s.ownWord (s.physical p ea) = true → v = (s.touched p .read ea).wordAt (s.physical p ea) ∧ n = s.draws) ∧
      exec i s = .next
        { (s.touched p .read ea).setReg d v with
          draws := n, ps := { s.ps with n := v.getLsbD 15, z := decide (v.toNat = 0) } })

/-- The instruction loads the byte at `ea` into `d`, zero-extended, N cleared and Z from it (R222, R238); never an
AlignFault (20_memory.md R107). -/
def LoadsByte (i : Instr) (s : State) (p : Privilege) (ea : Word) (d : Reg) : Prop :=
  TrapsRefused i s p .read ea ∧
  (s.allows p .read ea = true →
    SameBytesOutside s (s.touched p .read ea) (s.pteBytes p ea) ∧
    ∃ (b : Byte) (n : Nat),
      (s.ownByte (s.physical p ea) = true → b = (s.touched p .read ea).byteAt (s.physical p ea) ∧ n = s.draws) ∧
      exec i s = .next
        { (s.touched p .read ea).setReg d (BitVec.ofNat 16 b.toNat) with
          draws := n, ps := { s.ps with n := false, z := decide (b.toNat = 0) } })

/-- The instruction stores the word `v` at `ea`, changing no register and no flag, and no byte of memory but the two stored
to and the page table entry's; RAM then holds `v` there (R226, 20_memory.md R108). -/
def StoresWord (i : Instr) (s : State) (p : Privilege) (ea v : Word) : Prop :=
  TrapsMisaligned i s ea ∧
  (ea.getLsbD 0 = false → TrapsRefused i s p .write ea) ∧
  (ea.getLsbD 0 = false → s.allows p .write ea = true →
    exec i s = .next ((s.touched p .write ea).physWrite2 (s.physical p ea) v) ∧
    SameBytesOutside s ((s.touched p .write ea).physWrite2 (s.physical p ea) v) (s.storeBytes p ea 2) ∧
    (s.ram.wf = true → s.ramWord (s.physical p ea) = true →
      ((s.touched p .write ea).physWrite2 (s.physical p ea) v).wordAt (s.physical p ea) = v))

/-- The instruction stores the byte `v` at `ea`; never an AlignFault (R228, 20_memory.md R104, R107). -/
def StoresByte (i : Instr) (s : State) (p : Privilege) (ea : Word) (v : Byte) : Prop :=
  TrapsRefused i s p .write ea ∧
  (s.allows p .write ea = true →
    exec i s = .next ((s.touched p .write ea).physWrite1 (s.physical p ea) v) ∧
    SameBytesOutside s ((s.touched p .write ea).physWrite1 (s.physical p ea) v) (s.storeBytes p ea 1) ∧
    (s.ram.wf = true → s.kindAt (s.physical p ea) = .ram →
      ((s.touched p .write ea).physWrite1 (s.physical p ea) v).byteAt (s.physical p ea) = v))

/-- Words stored one below the other from stack pointer `sp` down, with the MMU off (10_state.md R46). -/
def State.storeDown (s : State) (sp : Word) : List Word → State
  | [] => s
  | v :: rest => (s.physWrite2 ((sp - 2#16).setWidth 32) v).storeDown (sp - 2#16) rest

/-- One of the `n` bytes from logical address `low` up, with the MMU off, wrapping at 2^16. -/
def StackBytes (low : Word) (n : Nat) (a : DWord) : Prop := a.toNat < 65536 ∧ (a.setWidth 16 - low).toNat < n

/-- How many members of an STS or STR list the mask selects. -/
def maskCount (mask : BitVec 4) : Nat := ((List.range 4).filter fun k => mask.getLsbD k).length

/-- How many selected members have a higher number than `k`: the place of member `k` in the frame (47_stack.md R352). -/
def maskAbove (mask : BitVec 4) (k : Nat) : Nat := ((List.range 4).filter fun j => mask.getLsbD j && decide (k < j)).length

/-- The word STR pops for member `k`, with the MMU off (R352, R353). -/
def State.popped (s : State) (mask : BitVec 4) (k : Nat) : Word :=
  s.wordAt ((s.sp + BitVec.ofNat 16 (2 * maskAbove mask k)).setWidth 32)

/-- The words of a stack frame of `count` words at SP are not in a device window, with the MMU off. -/
def State.ownFrame (s : State) (count : Nat) : Bool :=
  (List.range count).all fun j => s.ownWord ((s.sp + BitVec.ofNat 16 (2 * j)).setWidth 32)

end Sys2Proof.Machine
end

