-- ==== Sys2Proof/Certificates/Slice0/Obligations.lean ====
section
/-! DEFINITION. The statements for the provers, from the spec's numbered rules. -/

open Sys2Proof Sys2Proof.Machine

/-! ## Encoding -/

/-- Decoding the encoder's word gives the instruction back, for every instruction and every value of its fields. -/
def Obligations.DecodeEncode : Prop := ∀ i : Instr, decode (encode i) = .ok i

/-- A word that decodes to an instruction is the encoder's word for it: no two words decode to one instruction. -/
def Obligations.EncodeDecode : Prop := ∀ (w : Word) (i : Instr), decode w = .ok i → encode i = w

/-- The reserved words are exactly those of R190 and R191, and fetching one raises UndefFault with PC advanced, in
either mode. The words 4900-49FF are the spec's decision D3 (log 20), the PC of the fault D7 (log 24), the amount CL
advances by is open, D20 (log 17). -/
def Obligations.ReservedWords : Prop :=
  (∀ w : Word, (∃ e, decode w = .error e) ↔
    (0x2800 ≤ w.toNat ∧ w.toNat ≤ 0x2BFF) ∨ (0x3800 ≤ w.toNat ∧ w.toNat ≤ 0x3BFF) ∨
    (0x4890 ≤ w.toNat ∧ w.toNat ≤ 0x489F) ∨ (0x48B0 ≤ w.toNat ∧ w.toNat ≤ 0x48BF) ∨
    (0x4900 ≤ w.toNat ∧ w.toNat ≤ 0x49FF) ∨
    (0x5030 ≤ w.toNat ∧ w.toNat ≤ 0x503F) ∨ (0x5070 ≤ w.toNat ∧ w.toNat ≤ 0x507F) ∨
    w.toNat = 0x50C4 ∨ w.toNat = 0x50C6 ∨ w.toNat = 0x50C7 ∨ (0x50D0 ≤ w.toNat ∧ w.toNat ≤ 0x50FF) ∨
    (0x5310 ≤ w.toNat ∧ w.toNat ≤ 0x533F) ∨ (0x5500 ≤ w.toNat ∧ w.toNat ≤ 0x55FF) ∨
    (0x5680 ≤ w.toNat ∧ w.toNat ≤ 0x56FF) ∨ (0x5780 ≤ w.toNat ∧ w.toNat ≤ 0x57FF) ∨
    (0x5800 ≤ w.toNat ∧ w.toNat ≤ 0x5FFF) ∨ 0x8000 ≤ w.toNat) ∧
  (∀ (s t : State) (w : Word) (e : Reserved), s.takeInputs.boundary = .run →
    s.takeInputs.fetch s.takeInputs.pc = .done w t → decode w = .error e →
    step s = .next ({ t with pc := t.pc + 2#16 }.raiseFault .undef).idleTick)

/-- A few words written out from the format tables decode to the instructions they stand for. The bit order of imm6s
is the spec's decision D2 (log 19), on which the word 2DF3 rests. -/
def Obligations.DecodedWords : Prop :=
  decode 0x00D1#16 = .ok (.add 1 2 3) ∧ decode 0x0AD1#16 = .ok (.dvi 0 2 3) ∧ decode 0x0EBD#16 = .ok (.btcM 5 7) ∧
  decode 0x11A2#16 = .ok (.mviL 2 0x34) ∧ decode 0x2DF3#16 = .ok (.lodPc 3 0x3E) ∧ decode 0x34D1#16 = .ok (.stoReg 1 2 3) ∧
  decode 0x41F9#16 = .ok (.asrImm 1 7) ∧ decode 0x439A#16 = .ok (.cmpReg 2 3) ∧ decode 0x48AE#16 = .ok (.revT 6) ∧
  decode 0x502F#16 = .ok (.stsSpecial 15) ∧ decode 0x5085#16 = .ok (.brk 5) ∧ decode 0x5258#16 = .ok (.msr 0 0x0B) ∧
  decode 0x530B#16 = .ok (.jsr 3) ∧ decode 0x5353#16 = .ok (.hwq 0x13) ∧ decode 0x53E7#16 = .ok (.ptsI 3 1) ∧
  decode 0x5711#16 = .ok (.souB 1 2) ∧ decode 0x6003#16 = .ok (.bvs 3) ∧ decode 0x7FFF#16 = .ok (.bra 0xFFF)

/-- When the boundary lets an instruction run and the fetched word decodes to `i`, the step is exec of `i` with PC two
further, and CL then advances by the instruction's cycles. The cycle count is an open parameter (log 17), charged at
the end of the step (log 48). -/
def Obligations.StepRunsDecoded : Prop :=
  ∀ (s t : State) (w : Word) (i : Instr), s.takeInputs.boundary = .run →
    s.takeInputs.fetch s.takeInputs.pc = .done w t → decode w = .ok i →
    step s =
      (match exec i { t with pc := t.pc + 2#16 } with
        | .next u => .next { u with cl := u.cl + BitVec.ofNat 32 (Config.cycles i) }
        | .fault f => .fault f
        | .refused r => .refused r)

/-! ## Math -/

/-- ADD and ADC, both forms: the sum modulo 2^16 into Rd, N, Z, C and V, and nothing else. -/
def Obligations.AddResult : Prop :=
  ∀ (s : State) (d m n : Reg) (imm : BitVec 5),
    let result := fun (a b : Word) (c : Nat) =>
      let r := a + b + BitVec.ofNat 16 c
      { s.setReg d r with
        ps :=
          { s.ps with
            n := r.getLsbD 15
            z := decide (r.toNat = 0)
            c := decide (65536 ≤ a.toNat + b.toNat + c)
            v := decide (a.toInt + b.toInt + c < -32768 ∨ 32767 < a.toInt + b.toInt + c) } }
    let carry := if s.ps.c then 1 else 0
    decode (0b0000000#7 ++ n ++ m ++ d) = .ok (.add d m n) ∧
    decode (0b0000001#7 ++ n ++ m ++ d) = .ok (.adc d m n) ∧
    decode (0b01000100#8 ++ imm ++ d) = .ok (.addImm d imm) ∧
    decode (0b01000101#8 ++ imm ++ d) = .ok (.adcImm d imm) ∧
    exec (.add d m n) s = .next (result (s.reg m) (s.reg n) 0) ∧
    exec (.adc d m n) s = .next (result (s.reg m) (s.reg n) carry) ∧
    exec (.addImm d imm) s = .next (result (s.reg d) (BitVec.ofNat 16 (imm.toNat + 1)) 0) ∧
    exec (.adcImm d imm) s = .next (result (s.reg d) (BitVec.ofNat 16 (imm.toNat + 1)) carry)

/-- SUB and SBC, both forms: the difference modulo 2^16 into Rd, N, Z, C (no borrow) and V (signed overflow by the sign
test of R259), and nothing else. -/
def Obligations.SubResult : Prop :=
  ∀ (s : State) (d m n : Reg) (imm : BitVec 5),
    let result := fun (a b : Word) (borrow : Nat) =>
      let r := a - b - BitVec.ofNat 16 borrow
      { s.setReg d r with
        ps :=
          { s.ps with
            n := r.getLsbD 15
            z := decide (r.toNat = 0)
            c := decide (b.toNat + borrow ≤ a.toNat)
            v := decide (a.getLsbD 15 ≠ b.getLsbD 15 ∧ r.getLsbD 15 ≠ a.getLsbD 15) } }
    let borrow := if s.ps.c then 0 else 1
    decode (0b0000010#7 ++ n ++ m ++ d) = .ok (.sub d m n) ∧
    decode (0b0000011#7 ++ n ++ m ++ d) = .ok (.sbc d m n) ∧
    decode (0b01000110#8 ++ imm ++ d) = .ok (.subImm d imm) ∧
    decode (0b01000111#8 ++ imm ++ d) = .ok (.sbcImm d imm) ∧
    exec (.sub d m n) s = .next (result (s.reg m) (s.reg n) 0) ∧
    exec (.sbc d m n) s = .next (result (s.reg m) (s.reg n) borrow) ∧
    exec (.subImm d imm) s = .next (result (s.reg d) (BitVec.ofNat 16 (imm.toNat + 1)) 0) ∧
    exec (.sbcImm d imm) s = .next (result (s.reg d) (BitVec.ofNat 16 (imm.toNat + 1)) borrow)

/-- MUL and MLI: the 32-bit product into the pair, N, Z and C; V and all else unchanged. -/
def Obligations.MulResult : Prop :=
  ∀ (s : State) (p : Pair) (m n : Reg),
    let result := fun (product : DWord) (neg : Bool) =>
      { (s.setReg (pairLo p) (product.extractLsb' 0 16)).setReg (pairHi p) (product.extractLsb' 16 16) with
        ps := { s.ps with n := neg, z := decide (product.toNat = 0), c := decide (65536 ≤ product.toNat) } }
    let signed := (s.reg m).signExtend 32 * (s.reg n).signExtend 32
    decode (0b0000100#7 ++ n ++ m ++ p ++ 0#1) = .ok (.mul p m n) ∧
    decode (0b0000100#7 ++ n ++ m ++ p ++ 1#1) = .ok (.mli p m n) ∧
    exec (.mul p m n) s = .next (result ((s.reg m).setWidth 32 * (s.reg n).setWidth 32) false) ∧
    exec (.mli p m n) s = .next (result signed (decide (signed.toInt < 0)))

/-- DIV: by zero it raises DivZeroFault, with no general register and no flag modified; else quotient and remainder into the
pair, N cleared, Z from the quotient. -/
def Obligations.DivResult : Prop :=
  ∀ (s : State) (p : Pair) (m n : Reg),
    decode (0b0000101#7 ++ n ++ m ++ p ++ 0#1) = .ok (.div p m n) ∧
    ((s.reg n).toNat = 0 → exec (.div p m n) s = .next (s.raiseFault .divZero) ∧ SameRegsAndFlags s (s.raiseFault .divZero)) ∧
    ((s.reg n).toNat ≠ 0 →
      ∃ q r : Word,
        (s.reg m).toNat = q.toNat * (s.reg n).toNat + r.toNat ∧ r.toNat < (s.reg n).toNat ∧
        exec (.div p m n) s = .next
          { (s.setReg (pairLo p) q).setReg (pairHi p) r with
            ps := { s.ps with n := false, z := decide (q.toNat = 0) } })

/-- DVI: by zero it raises DivZeroFault, with no general register and no flag modified; -32768 / -1 gives $8000, some
remainder, N = 1, Z = 0, V = 1; else the quotient rounded toward zero and the remainder with the dividend's sign, N and
Z from the quotient, V cleared. -/
def Obligations.DviResult : Prop :=
  ∀ (s : State) (p : Pair) (m n : Reg),
    let a := (s.reg m).toInt
    let b := (s.reg n).toInt
    decode (0b0000101#7 ++ n ++ m ++ p ++ 1#1) = .ok (.dvi p m n) ∧
    (b = 0 → exec (.dvi p m n) s = .next (s.raiseFault .divZero) ∧ SameRegsAndFlags s (s.raiseFault .divZero)) ∧
    (a = -32768 → b = -1 →
      ∃ free : Word, exec (.dvi p m n) s = .next
        { (s.setReg (pairLo p) 0x8000#16).setReg (pairHi p) free with
          draws := s.draws + 1, ps := { s.ps with n := true, z := false, v := true } }) ∧
    (b ≠ 0 → ¬(a = -32768 ∧ b = -1) →
      ∃ q r : Word,
        a = q.toInt * b + r.toInt ∧ r.toInt.natAbs < b.natAbs ∧ (r.toInt = 0 ∨ (r.toInt < 0 ↔ a < 0)) ∧
        exec (.dvi p m n) s = .next
          { (s.setReg (pairLo p) q).setReg (pairHi p) r with
            ps := { s.ps with n := decide (q.toInt < 0), z := decide (q.toInt = 0), v := false } })

/-! ## Bit tests -/

/-- BTT, BTX, BTC, BTS on a register: Z tells whether the old bit was 0, C follows each instruction's rule, only the one bit
of Rd changes, and BTT changes no register. -/
def Obligations.BitTestRegister : Prop :=
  ∀ (s : State) (d : Reg) (imm : BitVec 4),
    let old := (s.reg d).getLsbD imm.toNat
    let puts := fun (i : Instr) (new carry : Bool) =>
      ∃ r : Word,
        (∀ j < 16, r.getLsbD j = if j = imm.toNat then new else (s.reg d).getLsbD j) ∧
        exec i s = .next { s.setReg d r with ps := { s.ps with z := !old, c := carry } }
    decode (0b00001100#8 ++ 0#1 ++ imm ++ d) = .ok (.btt d imm) ∧
    decode (0b00001101#8 ++ 0#1 ++ imm ++ d) = .ok (.btx d imm) ∧
    decode (0b00001110#8 ++ 0#1 ++ imm ++ d) = .ok (.btc d imm) ∧
    decode (0b00001111#8 ++ 0#1 ++ imm ++ d) = .ok (.bts d imm) ∧
    exec (.btt d imm) s = .next { s with ps := { s.ps with z := !old } } ∧
    puts (.btx d imm) (!old) (!old) ∧ puts (.btc d imm) false old ∧ puts (.bts d imm) true (!old)

/-- BTT.M, BTX.M, BTC.M, BTS.M: an odd address raises AlignFault, a refused page a PageFault (of a write for the last
three); else Z and C follow the word at [Rd], the last three write it back with the one bit changed, no register
changes, and no memory but that word and the page table entry; with their words. One translation, for a write, is the
spec's decision D27 (log 40), alignment before translation D5 (log 22), the cause bits D10 (log 27), the written-back
A and D bits D17 (log 34). -/
def Obligations.BitTestMemory : Prop :=
  ∀ (s : State) (d : Reg) (imm : BitVec 4),
    let ea := s.reg d
    let p := s.ps.mode
    let pa := s.physical p ea
    let traps := fun (i : Instr) (k : AccessKind) =>
      TrapsMisaligned i s ea ∧ (ea.getLsbD 0 = false → TrapsRefused i s p k ea)
    let modifies := fun (i : Instr) (new carry : Bool → Bool) =>
      ea.getLsbD 0 = false → s.allows p .write ea = true →
        ∃ (w r : Word) (n : Nat),
          (s.ownWord pa = true → w = (s.touched p .write ea).wordAt pa ∧ n = s.draws) ∧
          (∀ j < 16, r.getLsbD j = if j = imm.toNat then new (w.getLsbD j) else w.getLsbD j) ∧
          SameBytesOutside s ((s.touched p .write ea).physWrite2 pa r) (s.storeBytes p ea 2) ∧
          exec i s = .next
            { (s.touched p .write ea).physWrite2 pa r with
              draws := n
              ps := { s.ps with z := !w.getLsbD imm.toNat, c := carry (w.getLsbD imm.toNat) } }
    decode (0b00001100#8 ++ 1#1 ++ imm ++ d) = .ok (.bttM d imm) ∧
    decode (0b00001101#8 ++ 1#1 ++ imm ++ d) = .ok (.btxM d imm) ∧
    decode (0b00001110#8 ++ 1#1 ++ imm ++ d) = .ok (.btcM d imm) ∧
    decode (0b00001111#8 ++ 1#1 ++ imm ++ d) = .ok (.btsM d imm) ∧
    traps (.bttM d imm) .read ∧ traps (.btxM d imm) .write ∧ traps (.btcM d imm) .write ∧ traps (.btsM d imm) .write ∧
    (ea.getLsbD 0 = false → s.allows p .read ea = true →
      ∃ (w : Word) (n : Nat),
        (s.ownWord pa = true → w = (s.touched p .read ea).wordAt pa ∧ n = s.draws) ∧
        SameBytesOutside s (s.touched p .read ea) (s.pteBytes p ea) ∧
        exec (.bttM d imm) s = .next
          { s.touched p .read ea with draws := n, ps := { s.ps with z := !w.getLsbD imm.toNat } }) ∧
    modifies (.btxM d imm) (fun b => !b) (fun b => !b) ∧ modifies (.btcM d imm) (fun _ => false) (fun b => b) ∧
    modifies (.btsM d imm) (fun _ => true) (fun b => !b)

/-! ## Moves -/

/-- MOV, MVI.L and MVI.H: the value copied, or the one octet replaced; no flag and nothing else changes. -/
def Obligations.MoveResult : Prop :=
  ∀ (s : State) (d m : Reg) (imm : BitVec 8),
    decode (0b0100100000#10 ++ m ++ d) = .ok (.mov d m) ∧
    decode (0b0001#4 ++ 0#1 ++ imm ++ d) = .ok (.mviL d imm) ∧
    decode (0b0001#4 ++ 1#1 ++ imm ++ d) = .ok (.mviH d imm) ∧
    exec (.mov d m) s = .next (s.setReg d (s.reg m)) ∧
    exec (.mviL d imm) s = .next (s.setReg d (BitVec.ofNat 16 ((s.reg d).toNat / 256 * 256 + imm.toNat))) ∧
    exec (.mviH d imm) s = .next (s.setReg d (BitVec.ofNat 16 (imm.toNat * 256 + (s.reg d).toNat % 256)))

/-- REX.SB, REX.UB, REV.B and REV.T: the low byte extended, the bytes swapped, the bits reversed; no flag and nothing else
changes. -/
def Obligations.ExtendReverse : Prop :=
  ∀ (s : State) (d : Reg),
    let v := s.reg d
    let puts := fun (i : Instr) (bit : Nat → Bool) =>
      ∃ r : Word, (∀ j < 16, r.getLsbD j = bit j) ∧ exec i s = .next (s.setReg d r)
    decode (0b01001000#8 ++ 0b10000#5 ++ d) = .ok (.rexSb d) ∧ decode (0b01001000#8 ++ 0b10001#5 ++ d) = .ok (.rexUb d) ∧
    decode (0b01001000#8 ++ 0b10100#5 ++ d) = .ok (.revB d) ∧ decode (0b01001000#8 ++ 0b10101#5 ++ d) = .ok (.revT d) ∧
    puts (.rexSb d) (fun j => if j < 8 then v.getLsbD j else v.getLsbD 7) ∧
    puts (.rexUb d) (fun j => decide (j < 8) && v.getLsbD j) ∧
    puts (.revB d) (fun j => v.getLsbD ((j + 8) % 16)) ∧
    puts (.revT d) (fun j => v.getLsbD (15 - j))

/-! ## Logic and compare -/

/-- AND, ORR, EOR, NOT: bit by bit into Rd, N and Z from the result; C, V and all else unchanged. -/
def Obligations.LogicResult : Prop :=
  ∀ (s : State) (d m n : Reg),
    let puts := fun (i : Instr) (bit : Nat → Bool) =>
      ∃ r : Word, (∀ j < 16, r.getLsbD j = bit j) ∧
        exec i s = .next { s.setReg d r with ps := { s.ps with n := r.getLsbD 15, z := decide (r.toNat = 0) } }
    decode (0b0100101#7 ++ n ++ m ++ d) = .ok (.andReg d m n) ∧ decode (0b0100110#7 ++ n ++ m ++ d) = .ok (.orrReg d m n) ∧
    decode (0b0100111#7 ++ n ++ m ++ d) = .ok (.eorReg d m n) ∧ decode (0b0100100011#10 ++ m ++ d) = .ok (.notReg d m) ∧
    puts (.andReg d m n) (fun j => (s.reg m).getLsbD j && (s.reg n).getLsbD j) ∧
    puts (.orrReg d m n) (fun j => (s.reg m).getLsbD j || (s.reg n).getLsbD j) ∧
    puts (.eorReg d m n) (fun j => (s.reg m).getLsbD j != (s.reg n).getLsbD j) ∧
    puts (.notReg d m) (fun j => !(s.reg m).getLsbD j)

/-- NEG writes Rd and N, Z, V but not C; CMP, both forms, writes N, Z and C, no register and not V. -/
def Obligations.NegateCompare : Prop :=
  ∀ (s : State) (d m n : Reg) (imm : BitVec 3),
    let compared := fun (a b : Word) =>
      { s with
        ps :=
          { s.ps with
            n := (a - b).getLsbD 15
            z := decide (a.toNat = b.toNat)
            c := decide (b.toNat ≤ a.toNat) } }
    let negated := BitVec.ofInt 16 (-(s.reg m).toInt)
    decode (0b0100100001#10 ++ m ++ d) = .ok (.neg d m) ∧
    decode (0b010000111#9 ++ 0#1 ++ n ++ m) = .ok (.cmpReg m n) ∧
    decode (0b010000111#9 ++ 1#1 ++ imm ++ m) = .ok (.cmpImm m imm) ∧
    exec (.neg d m) s = .next
      { s.setReg d negated with
        ps :=
          { s.ps with
            n := negated.getLsbD 15
            z := decide (negated.toNat = 0)
            v := decide ((s.reg m).toInt = -32768) } } ∧
    exec (.cmpReg m n) s = .next (compared (s.reg m) (s.reg n)) ∧
    exec (.cmpImm m imm) s = .next (compared (s.reg m) (BitVec.ofNat 16 imm.toNat))

/-! ## Shifts and rotates -/

/-- LSL, LSR and ASR, both forms, by a count saturated at 15 or of 1 to 8: the value times or divided by a power of
two, N, Z, C from the bits lost, V written by ASR alone, and nothing else; with their words. The saturation is D1
(log 18). -/
def Obligations.ShiftResult : Prop :=
  ∀ (s : State) (d m : Reg) (imm : BitVec 3),
    let v := s.reg d
    let counts := fun (byReg byImm : Instr) (result : Nat → State) =>
      exec byReg s = .next (result (if 15 < (s.reg m).toNat then 15 else (s.reg m).toNat)) ∧
      exec byImm s = .next (result (imm.toNat + 1))
    let put := fun (r : Word) (c ov : Bool) =>
      { s.setReg d r with ps := { s.ps with n := r.getLsbD 15, z := decide (r.toNat = 0), c := c, v := ov } }
    decode (0b010000000#9 ++ 0#1 ++ m ++ d) = .ok (.lslReg d m) ∧ decode (0b010000000#9 ++ 1#1 ++ imm ++ d) = .ok (.lslImm d imm) ∧
    decode (0b010000100#9 ++ 0#1 ++ m ++ d) = .ok (.lsrReg d m) ∧ decode (0b010000100#9 ++ 1#1 ++ imm ++ d) = .ok (.lsrImm d imm) ∧
    decode (0b010000011#9 ++ 0#1 ++ m ++ d) = .ok (.asrReg d m) ∧ decode (0b010000011#9 ++ 1#1 ++ imm ++ d) = .ok (.asrImm d imm) ∧
    counts (.lslReg d m) (.lslImm d imm) (fun x =>
      put (BitVec.ofNat 16 (v.toNat * 2 ^ x)) (decide (65536 ≤ v.toNat * 2 ^ x)) s.ps.v) ∧
    counts (.lsrReg d m) (.lsrImm d imm) (fun x =>
      put (BitVec.ofNat 16 (v.toNat / 2 ^ x)) (decide (v.toNat % 2 ^ x ≠ 0)) s.ps.v) ∧
    counts (.asrReg d m) (.asrImm d imm) (fun x =>
      put (BitVec.ofInt 16 (v.toInt / 2 ^ x)) (decide (v.toNat % 2 ^ x ≠ 0))
        (decide (v.toInt ≠ -1 ∧ v.toInt / 2 ^ x = -1)))

/-- RNL and RNR, both forms: bit i of the result is the old bit the count away, around the register; N and Z from the
result; C, V and all else unchanged; with their words. The saturation of a register count at 15 is the spec's
decision D1 (log 18). -/
def Obligations.RotateResult : Prop :=
  ∀ (s : State) (d m : Reg) (imm : BitVec 3),
    let v := s.reg d
    let rotates := fun (i : Instr) (bit : Nat → Nat) =>
      ∃ r : Word, (∀ j < 16, r.getLsbD j = v.getLsbD (bit j)) ∧
        exec i s = .next { s.setReg d r with ps := { s.ps with n := r.getLsbD 15, z := decide (r.toNat = 0) } }
    let count := if 15 < (s.reg m).toNat then 15 else (s.reg m).toNat
    decode (0b010000010#9 ++ 0#1 ++ m ++ d) = .ok (.rnlReg d m) ∧ decode (0b010000010#9 ++ 1#1 ++ imm ++ d) = .ok (.rnlImm d imm) ∧
    decode (0b010000110#9 ++ 0#1 ++ m ++ d) = .ok (.rnrReg d m) ∧ decode (0b010000110#9 ++ 1#1 ++ imm ++ d) = .ok (.rnrImm d imm) ∧
    rotates (.rnlReg d m) (fun j => (j + 16 - count) % 16) ∧ rotates (.rnlImm d imm) (fun j => (j + 16 - (imm.toNat + 1)) % 16) ∧
    rotates (.rnrReg d m) (fun j => (j + count) % 16) ∧ rotates (.rnrImm d imm) (fun j => (j + (imm.toNat + 1)) % 16)

/-- ROL and ROR, both forms: the 17-bit value C above Rd is rotated by the count; N and Z from Rd, C its bit 16; V
and all else unchanged; with their words. The saturation of a register count at 15 is the spec's decision D1 (log
18). -/
def Obligations.RotateCarryResult : Prop :=
  ∀ (s : State) (d m : Reg) (imm : BitVec 3),
    let all : BitVec 17 := BitVec.ofBool s.ps.c ++ s.reg d
    let put := fun (w : BitVec 17) =>
      let r := w.setWidth 16
      { s.setReg d r with
        ps := { s.ps with n := r.getLsbD 15, z := decide (r.toNat = 0), c := w.getLsbD 16 } }
    let count := if 15 < (s.reg m).toNat then 15 else (s.reg m).toNat
    decode (0b010000001#9 ++ 0#1 ++ m ++ d) = .ok (.rolReg d m) ∧ decode (0b010000001#9 ++ 1#1 ++ imm ++ d) = .ok (.rolImm d imm) ∧
    decode (0b010000101#9 ++ 0#1 ++ m ++ d) = .ok (.rorReg d m) ∧ decode (0b010000101#9 ++ 1#1 ++ imm ++ d) = .ok (.rorImm d imm) ∧
    exec (.rolReg d m) s = .next (put (all.rotateLeft count)) ∧
    exec (.rolImm d imm) s = .next (put (all.rotateLeft (imm.toNat + 1))) ∧
    exec (.rorReg d m) s = .next (put (all.rotateRight count)) ∧
    exec (.rorImm d imm) s = .next (put (all.rotateRight (imm.toNat + 1)))

/-! ## Loads and stores -/

/-- The four forms of LOD, with their effective addresses. The bit order of imm6s is the spec's decision D2 (log 19),
alignment before translation D5 (log 22), the cause bits D10 (log 27), the flags D26 (log 39), the written-back A bit
D17 (log 34). -/
def Obligations.LoadWord : Prop :=
  ∀ (s : State) (d m n : Reg) (imm : BitVec 3) (off : BitVec 6),
    let p := s.ps.mode
    let offset := BitVec.ofInt 16 (2 * off.toInt)
    decode (0b0010010#7 ++ n ++ m ++ d) = .ok (.lodReg d m n) ∧ decode (0b0010011#7 ++ imm ++ m ++ d) = .ok (.lodImm d m imm) ∧
    decode (0b0010110#7 ++ off ++ d) = .ok (.lodPc d off) ∧ decode (0b0010111#7 ++ off ++ d) = .ok (.lodSp d off) ∧
    LoadsWord (.lodReg d m n) s p (s.reg m + s.reg n) d ∧
    LoadsWord (.lodImm d m imm) s p (s.reg m + BitVec.ofNat 16 (2 * imm.toNat)) d ∧
    LoadsWord (.lodPc d off) s p (s.pc + offset) d ∧
    LoadsWord (.lodSp d off) s p ((if s.ps.mode = .user then s.su else s.ss) + offset) d

/-- The two forms of LOD.B, with their effective addresses. The cause bits are the spec's decision D10 (log 27), the
flags D26 (log 39), the written-back A bit D17 (log 34). -/
def Obligations.LoadByte : Prop :=
  ∀ (s : State) (d m n : Reg) (imm : BitVec 3),
    decode (0b0010000#7 ++ n ++ m ++ d) = .ok (.lodBReg d m n) ∧
    decode (0b0010001#7 ++ imm ++ m ++ d) = .ok (.lodBImm d m imm) ∧
    LoadsByte (.lodBReg d m n) s s.ps.mode (s.reg m + s.reg n) d ∧
    LoadsByte (.lodBImm d m imm) s s.ps.mode (s.reg m + BitVec.ofNat 16 imm.toNat) d

/-- The four forms of STO, with their effective addresses. The bit order of imm6s is the spec's decision D2 (log 19),
alignment before translation D5 (log 22), the cause bits D10 (log 27), the written-back A and D bits D17 (log 34). -/
def Obligations.StoreWord : Prop :=
  ∀ (s : State) (d m n : Reg) (imm : BitVec 3) (off : BitVec 6),
    let p := s.ps.mode
    let offset := BitVec.ofInt 16 (2 * off.toInt)
    decode (0b0011010#7 ++ n ++ m ++ d) = .ok (.stoReg d m n) ∧ decode (0b0011011#7 ++ imm ++ m ++ d) = .ok (.stoImm d m imm) ∧
    decode (0b0011110#7 ++ off ++ d) = .ok (.stoPc d off) ∧ decode (0b0011111#7 ++ off ++ d) = .ok (.stoSp d off) ∧
    StoresWord (.stoReg d m n) s p (s.reg m + s.reg n) (s.reg d) ∧
    StoresWord (.stoImm d m imm) s p (s.reg m + BitVec.ofNat 16 (2 * imm.toNat)) (s.reg d) ∧
    StoresWord (.stoPc d off) s p (s.pc + offset) (s.reg d) ∧
    StoresWord (.stoSp d off) s p ((if s.ps.mode = .user then s.su else s.ss) + offset) (s.reg d)

/-- The two forms of STO.B, with their effective addresses. The cause bits are the spec's decision D10 (log 27), the
written-back A and D bits D17 (log 34). -/
def Obligations.StoreByte : Prop :=
  ∀ (s : State) (d m n : Reg) (imm : BitVec 3),
    let low := BitVec.ofNat 8 (s.reg d).toNat
    decode (0b0011000#7 ++ n ++ m ++ d) = .ok (.stoBReg d m n) ∧
    decode (0b0011001#7 ++ imm ++ m ++ d) = .ok (.stoBImm d m imm) ∧
    StoresByte (.stoBReg d m n) s s.ps.mode (s.reg m + s.reg n) low ∧
    StoresByte (.stoBImm d m imm) s s.ps.mode (s.reg m + BitVec.ofNat 16 imm.toNat) low

/-- LOU, LOU.B, SOU, SOU.B: UnprivFault in user mode; in supervisor mode a load or store at the address Rm holds, made
as a user access. That they are privileged, their treatment with the MMU off, their flags and IC are the spec's
decision D13 (log 30), alignment before translation D5 (log 22), the cause bits D10 (log 27), the written-back A and D
bits D17 (log 34). -/
def Obligations.UserAccess : Prop :=
  ∀ (s : State) (d m : Reg),
    decode (0b0101011001#10 ++ m ++ d) = .ok (.lou d m) ∧ decode (0b0101011000#10 ++ m ++ d) = .ok (.louB d m) ∧
    decode (0b0101011101#10 ++ m ++ d) = .ok (.sou d m) ∧ decode (0b0101011100#10 ++ m ++ d) = .ok (.souB d m) ∧
    (s.ps.mode = .user → ∀ i ∈ [Instr.lou d m, .louB d m, .sou d m, .souB d m],
      exec i s = .next (s.raiseFault .unpriv)) ∧
    (s.ps.mode = .supervisor →
      LoadsWord (.lou d m) s .user (s.reg m) d ∧ LoadsByte (.louB d m) s .user (s.reg m) d ∧
      StoresWord (.sou d m) s .user (s.reg m) (s.reg d) ∧
      StoresByte (.souB d m) s .user (s.reg m) (BitVec.ofNat 8 (s.reg d).toNat))

/-! ## Stack -/

/-- One push and one pop, with the MMU on or off: the word below, or at, the stack pointer, through that page, and
then the rest; a misaligned or refused access ends the sequence where it stands. SP is SU in user mode and SS in
supervisor mode. That a sequence ends where it stands with the earlier accesses kept is the spec's decision D8 (log
25), alignment before translation D5 (log 22), the cause bits D10 (log 27), the written-back A and D bits D17 (log
34). -/
def Obligations.PushPop : Prop :=
  ∀ (s : State) (p : Privilege) (sp v : Word) (rest : List Word) (n : Nat),
    (s.ps.mode = .user → s.sp = s.su ∧ s.setSp sp = { s with su := sp }) ∧
    (s.ps.mode = .supervisor → s.sp = s.ss ∧ s.setSp sp = { s with ss := sp }) ∧
    (∀ (q : State), q.pushWords p sp [] = .done sp q) ∧
    (∀ (q : State), q.popWords p sp 0 = .done [] q) ∧
    (sp.getLsbD 0 = true → s.pushWords p sp (v :: rest) = .abort .align s ∧ s.popWords p sp (n + 1) = .abort .align s) ∧
    (sp.getLsbD 0 = false → s.denies p .write (sp - 2#16) = true →
      s.pushWords p sp (v :: rest) = .abort (.page (s.pageFaultCause p .write (sp - 2#16)) (sp - 2#16)) s) ∧
    (sp.getLsbD 0 = false → s.denies p .read sp = true →
      s.popWords p sp (n + 1) = .abort (.page (s.pageFaultCause p .read sp) sp) s) ∧
    (sp.getLsbD 0 = false → s.allows p .write (sp - 2#16) = true →
      s.pushWords p sp (v :: rest) =
        ((s.touched p .write (sp - 2#16)).physWrite2 (s.physical p (sp - 2#16)) v).pushWords p (sp - 2#16) rest) ∧
    (sp.getLsbD 0 = false → s.allows p .read sp = true → s.ownWord (s.physical p sp) = true →
      s.popWords p sp (n + 1) =
        match (s.touched p .read sp).popWords p (sp + 2#16) n with
        | .done ws t => .done ((s.touched p .read sp).wordAt (s.physical p sp) :: ws) t
        | .abort e t => .abort e t)

/-- STS, all groups: the selected members go below SP in ascending order, SP moves down by two for each, an access
that faults leaves every register unchanged, and nothing else changes but memory. User mode pushes the flags of PS
only and SU in place of SS. Stated whole for the MMU off; with it on through the pushes of PushPop. The values pushed
and the empty mask are the spec's decisions D14 and D15 (logs 31 and 32), what a fault leaves D8 (log 25), alignment
before translation D5 (log 22). -/
def Obligations.StashRegisters : Prop :=
  ∀ (s : State) (mask : BitVec 4),
    let user := decide (s.ps.mode = .user)
    let low := [s.reg 0, s.reg 1, s.reg 2, s.reg 3]
    let high := [s.reg 4, s.reg 5, s.reg 6, s.reg 7]
    let special := [s.pc, if user then s.ps.toWord &&& 0x000F#16 else s.ps.toWord, s.su, if user then s.su else s.ss]
    let stashes := fun (i : Instr) (members : List Word) =>
      let chosen := ((List.range 4).filter fun k => mask.getLsbD k).map fun k => members.getD k 0#16
      (exec i s = match s.pushWords s.ps.mode s.sp chosen with
        | .done sp t => .next (t.setSp sp)
        | .abort e t => .next (t.raiseFault e)) ∧
      (∀ (sp : Word) (t : State), s.pushWords s.ps.mode s.sp chosen = .done sp t →
        sp = s.sp - BitVec.ofNat 16 (2 * maskCount mask) ∧ SameButMemory s t) ∧
      (∀ (e : FaultCause) (t : State), s.pushWords s.ps.mode s.sp chosen = .abort e t → SameButMemory s t) ∧
      (mask ≠ 0#4 → s.sp.getLsbD 0 = true → exec i s = .next (s.raiseFault .align)) ∧
      (s.ps.mmu = false → (mask = 0#4 ∨ s.sp.getLsbD 0 = false) →
        let sp := s.sp - BitVec.ofNat 16 (2 * maskCount mask)
        exec i s = .next ((s.storeDown s.sp chosen).setSp sp) ∧
        SameBytesOutside s ((s.storeDown s.sp chosen).setSp sp) (StackBytes sp (2 * maskCount mask)))
    decode (0b010100000#9 ++ 0#1 ++ 0b00#2 ++ mask) = .ok (.stsLow mask) ∧
    decode (0b010100000#9 ++ 0#1 ++ 0b01#2 ++ mask) = .ok (.stsHigh mask) ∧
    decode (0b010100000#9 ++ 0#1 ++ 0b10#2 ++ mask) = .ok (.stsSpecial mask) ∧
    stashes (.stsLow mask) low ∧ stashes (.stsHigh mask) high ∧ stashes (.stsSpecial mask) special

/-- STR, groups 0 and 1: the words popped go to the selected registers, the highest-numbered first; SP moves up by two
for each; a fault on any pop leaves every register as it was; no other register changes. With the MMU off the words
are those of the frame at SP and no memory changes; a misaligned SP is an AlignFault. The empty mask is the spec's
decision D15 (log 32), what a fault leaves D8 (log 25), alignment before translation D5 (log 22). -/
def Obligations.RestoreRegisters : Prop :=
  ∀ (s : State) (mask : BitVec 4),
    let after := s.sp + BitVec.ofNat 16 (2 * maskCount mask)
    let loaded := fun (base : Nat) (u t : State) (word : Nat → Word) =>
      (∀ k < 4, t.reg (BitVec.ofNat 3 (base + k)) =
        if mask.getLsbD k then word k else s.reg (BitVec.ofNat 3 (base + k))) ∧
      (∀ k < 4, t.reg (BitVec.ofNat 3 (4 - base + k)) = s.reg (BitVec.ofNat 3 (4 - base + k))) ∧
      t = { u with regs := t.regs }
    let restores := fun (i : Instr) (base : Nat) =>
      (mask ≠ 0#4 → s.sp.getLsbD 0 = true → exec i s = .next (s.raiseFault .align)) ∧
      (∀ (e : FaultCause) (u : State), s.popWords s.ps.mode s.sp (maskCount mask) = .abort e u →
        exec i s = .next (u.raiseFault e) ∧ SameButMemory s u) ∧
      (∀ (words : List Word) (u : State), s.popWords s.ps.mode s.sp (maskCount mask) = .done words u →
        SameButMemory s u ∧ ∃ t : State, loaded base u t (fun k => words.getD (maskAbove mask k) 0#16) ∧ exec i s = .next (t.setSp after)) ∧
      (s.ps.mmu = false → (mask = 0#4 ∨ s.sp.getLsbD 0 = false) → s.ownFrame (maskCount mask) = true →
        ∃ t : State, loaded base s t (s.popped mask) ∧ exec i s = .next (t.setSp after))
    decode (0b010100000#9 ++ 1#1 ++ 0b00#2 ++ mask) = .ok (.strLow mask) ∧
    decode (0b010100000#9 ++ 1#1 ++ 0b01#2 ++ mask) = .ok (.strHigh mask) ∧
    restores (.strLow mask) 0 ∧ restores (.strHigh mask) 4

/-- STR, group 2: all pops use the stack in force at the start, and a fault on one leaves every register as it was; a
popped stack pointer replaces the incremented one; user mode writes only the flags of PS and SU in place of SS; a
supervisor PS word with bit 15 set is refused; no general register changes. With the MMU off the words are those of
the frame at SP and no memory changes. The order of the writes is the spec's decision D14 (log 31), the empty mask D15
(log 32), what a fault leaves D8 (log 25), alignment before translation D5 (log 22), the refusal U3 (log 13). -/
def Obligations.RestoreSpecial : Prop :=
  ∀ (s : State) (mask : BitVec 4),
    let count := maskCount mask
    let after := s.sp + BitVec.ofNat 16 (2 * count)
    let user := decide (s.ps.mode = .user)
    let commits := fun (u : State) (v : Nat → Word) =>
      (user = false → mask.getLsbD 1 = true → (v 1).getLsbD 15 = true →
        exec (.strSpecial mask) s = .refused .reservedMode) ∧
      (user = true ∨ mask.getLsbD 1 = false ∨ (v 1).getLsbD 15 = false →
        ∃ ps : Status,
          (mask.getLsbD 1 = false → ps = s.ps) ∧
          (mask.getLsbD 1 = true → user = false → ps.toWord = v 1 &&& 0xF07F#16) ∧
          (mask.getLsbD 1 = true → user = true → ps.toWord = (s.ps.toWord &&& 0xFFF0#16) ||| (v 1 &&& 0x000F#16)) ∧
          exec (.strSpecial mask) s = .next
            { u with
              ps := ps
              pc := if mask.getLsbD 0 then v 0 else s.pc
              su :=
                if mask.getLsbD 2 then v 2
                else if user then (if mask.getLsbD 3 then v 3 else after) else s.su
              ss := if user then s.ss else if mask.getLsbD 3 then v 3 else after })
    decode (0b010100000#9 ++ 1#1 ++ 0b10#2 ++ mask) = .ok (.strSpecial mask) ∧
    (mask ≠ 0#4 → s.sp.getLsbD 0 = true → exec (.strSpecial mask) s = .next (s.raiseFault .align)) ∧
    (∀ (e : FaultCause) (u : State), s.popWords s.ps.mode s.sp count = .abort e u →
      exec (.strSpecial mask) s = .next (u.raiseFault e) ∧ SameButMemory s u) ∧
    (∀ (words : List Word) (u : State), s.popWords s.ps.mode s.sp count = .done words u →
      SameButMemory s u ∧ commits u (fun k => words.getD (maskAbove mask k) 0#16)) ∧
    (s.ps.mmu = false → (mask = 0#4 ∨ s.sp.getLsbD 0 = false) → s.ownFrame count = true → commits s (s.popped mask))

/-! ## Jumps, branches and the stack pointer -/

/-- JMP, the nine branches and STX, with their words: only PC, or only the current mode's stack pointer, changes. -/
def Obligations.JumpBranch : Prop :=
  ∀ (s : State) (m : Reg) (imm : BitVec 9) (far : BitVec 12) (adj : BitVec 8),
    let branches := fun (i : Instr) (code : BitVec 3) (taken : Bool) =>
      decode (0b0110#4 ++ code ++ imm) = .ok i ∧
      exec i s = .next { s with pc := if taken then s.pc + BitVec.ofInt 16 (2 * imm.toInt) else s.pc }
    branches (.bvs imm) 0b000 s.ps.v ∧ branches (.bvc imm) 0b001 (!s.ps.v) ∧ branches (.bcs imm) 0b010 s.ps.c ∧
    branches (.bcc imm) 0b011 (!s.ps.c) ∧ branches (.beq imm) 0b100 s.ps.z ∧ branches (.bne imm) 0b101 (!s.ps.z) ∧
    branches (.bmi imm) 0b110 s.ps.n ∧ branches (.bpl imm) 0b111 (!s.ps.n) ∧
    decode (0b0111#4 ++ far) = .ok (.bra far) ∧ decode (0b010100110000#12 ++ 0#1 ++ m) = .ok (.jmp m) ∧
    decode (0b01010100#8 ++ adj) = .ok (.stx adj) ∧
    exec (.bra far) s = .next { s with pc := s.pc + BitVec.ofInt 16 (2 * far.toInt) } ∧
    exec (.jmp m) s = .next { s with pc := s.reg m } ∧
    (s.ps.mode = .user → exec (.stx adj) s = .next { s with su := s.su + BitVec.ofInt 16 (2 * adj.toInt) }) ∧
    (s.ps.mode = .supervisor → exec (.stx adj) s = .next { s with ss := s.ss + BitVec.ofInt 16 (2 * adj.toInt) })

/-- JSR stores the address of the next instruction at SP - 2 and jumps to Rm; RTS pops PC. Either changes SP only when
its access succeeds, and no other register. That a fault leaves SP is the spec's decision D8 (log 25), alignment
before translation D5 (log 22), the cause bits D10 (log 27), the written-back A and D bits D17 (log 34). -/
def Obligations.CallReturn : Prop :=
  ∀ (s : State) (m : Reg),
    let p := s.ps.mode
    let ea := s.sp - 2#16
    decode (0b010100110000#12 ++ 1#1 ++ m) = .ok (.jsr m) ∧ decode (0b0101000011#10 ++ 0b000000#6) = .ok .rts ∧
    TrapsMisaligned (.jsr m) s ea ∧ (ea.getLsbD 0 = false → TrapsRefused (.jsr m) s p .write ea) ∧
    (ea.getLsbD 0 = false → s.allows p .write ea = true →
      let t := (s.touched p .write ea).physWrite2 (s.physical p ea) s.pc
      exec (.jsr m) s = .next { t.setSp ea with pc := s.reg m } ∧
      SameBytesOutside s t (s.storeBytes p ea 2) ∧
      (s.ram.wf = true → s.ramWord (s.physical p ea) = true → t.wordAt (s.physical p ea) = s.pc)) ∧
    TrapsMisaligned .rts s s.sp ∧ (s.sp.getLsbD 0 = false → TrapsRefused .rts s p .read s.sp) ∧
    (s.sp.getLsbD 0 = false → s.allows p .read s.sp = true →
      ∃ (v : Word) (n : Nat),
        (s.ownWord (s.physical p s.sp) = true →
          v = (s.touched p .read s.sp).wordAt (s.physical p s.sp) ∧ n = s.draws) ∧
        exec .rts s = .next { (s.touched p .read s.sp).setSp (s.sp + 2#16) with pc := v, draws := n })

/-! ## Processor control -/

/-- NOP changes nothing, the eight flag instructions one flag each, and SLP in supervisor mode the sleep state alone,
while in user mode it raises UnprivFault; with their words. -/
def Obligations.FlagsNopSleep : Prop :=
  ∀ s : State,
    let function := fun (f : BitVec 6) => decode (0b0101000011#10 ++ f)
    function 0x05 = .ok .nop ∧ function 0x08 = .ok .sfv ∧ function 0x09 = .ok .cfv ∧ function 0x0A = .ok .sfc ∧
    function 0x0B = .ok .cfc ∧ function 0x0C = .ok .sfz ∧ function 0x0D = .ok .cfz ∧ function 0x0E = .ok .sfn ∧
    function 0x0F = .ok .cfn ∧ function 0x03 = .ok .slp ∧
    exec .nop s = .next s ∧
    exec .sfv s = .next { s with ps := { s.ps with v := true } } ∧
    exec .cfv s = .next { s with ps := { s.ps with v := false } } ∧
    exec .sfc s = .next { s with ps := { s.ps with c := true } } ∧
    exec .cfc s = .next { s with ps := { s.ps with c := false } } ∧
    exec .sfz s = .next { s with ps := { s.ps with z := true } } ∧
    exec .cfz s = .next { s with ps := { s.ps with z := false } } ∧
    exec .sfn s = .next { s with ps := { s.ps with n := true } } ∧
    exec .cfn s = .next { s with ps := { s.ps with n := false } } ∧
    (s.ps.mode = .supervisor → exec .slp s = .next { s with asleep := true }) ∧
    (s.ps.mode = .user → exec .slp s = .next (s.raiseFault .unpriv))

/-- MRS of every special register: a 16-bit one into Rd, a 32-bit one into the pair of an even Rd; PS shows only its
flags in user mode; nothing else changes; with its words. PS as a word has its fields where R38 puts them, and a
register written reads back, the others unchanged. The zero bits 15:2 of IM and 11:7 of PS are the spec's decision
D11 (logs 28 and 13). -/
def Obligations.ReadSpecial : Prop :=
  ∀ (s : State) (d : Reg) (idx : BitVec 5),
    let bit := fun (b : Bool) (k : Nat) => if b then 2 ^ k else 0
    let bits := fun (h c : Bool) => BitVec.ofNat 16 ((if h then 2 else 0) + (if c then 1 else 0))
    let pairs := fun (idx : BitVec 5) (v : DWord) =>
      d.getLsbD 0 = false →
        exec (.mrs d idx) s = .next ((s.setReg d (v.extractLsb' 0 16)).setReg (d + 1#3) (v.extractLsb' 16 16))
    decode (0b01010001#8 ++ idx ++ d) = .ok (.mrs d idx) ∧
    (∀ (e : Reg) (v : Word), (s.setReg d v).reg e = if e = d then v else s.reg e) ∧
    (∀ v : Word, s.setReg d v = { s with regs := (s.setReg d v).regs }) ∧
    s.ps.toWord.toNat =
      bit (decide (s.ps.mode = .supervisor)) 14 + bit s.ps.mmu 13 + bit s.ps.ie 12 + 16 * s.ps.level.toNat + bit s.ps.n 3
        + bit s.ps.z 2 + bit s.ps.c 1 + bit s.ps.v 0 ∧
    exec (.mrs d 0x00) s = .next (s.setReg d s.pc) ∧
    exec (.mrs d 0x02) s = .next (s.setReg d s.su) ∧
    (s.ps.mode = .user → exec (.mrs d 0x01) s = .next (s.setReg d (s.ps.toWord &&& 0x000F#16))) ∧
    (s.ps.mode = .supervisor →
      exec (.mrs d 0x01) s = .next (s.setReg d s.ps.toWord) ∧
      exec (.mrs d 0x03) s = .next (s.setReg d s.ss) ∧
      exec (.mrs d 0x04) s = .next (s.setReg d s.vb) ∧
      exec (.mrs d 0x05) s = .next (s.setReg d (bits s.im.hardware s.im.clock)) ∧
      exec (.mrs d 0x06) s = .next (s.setReg d s.ic) ∧
      exec (.mrs d 0x07) s = .next (s.setReg d s.fa) ∧
      pairs 0x08 s.tu ∧ pairs 0x09 s.ts ∧ pairs 0x0A s.cl ∧ pairs 0x0B s.cc ∧ pairs 0x0C 0x00000001#32)

/-- MSR to every special register: a 16-bit one from Rd, a 32-bit one from the pair of an even Rd, IM its two bits,
PF nothing; PS in user mode its flags alone, in supervisor mode all implemented fields, refused where bit 15 is set;
with its words. Reserved bits, PS.P = 10 or 11 and the write to PF are D11, U3 and D12 (logs 28, 13 and 29). -/
def Obligations.WriteSpecial : Prop :=
  ∀ (s : State) (d : Reg) (idx : BitVec 5),
    let v := s.reg d
    let w : DWord := s.reg (d + 1#3) ++ v
    decode (0b01010010#8 ++ idx ++ d) = .ok (.msr d idx) ∧
    exec (.msr d 0x00) s = .next { s with pc := v } ∧
    exec (.msr d 0x02) s = .next { s with su := v } ∧
    (s.ps.mode = .user →
      ∃ ps : Status, ps.toWord = (s.ps.toWord &&& 0xFFF0#16) ||| (v &&& 0x000F#16) ∧
        exec (.msr d 0x01) s = .next { s with ps := ps }) ∧
    (s.ps.mode = .supervisor →
      (v.getLsbD 15 = true → exec (.msr d 0x01) s = .refused .reservedMode) ∧
      (v.getLsbD 15 = false →
        ∃ ps : Status, ps.toWord = v &&& 0xF07F#16 ∧ exec (.msr d 0x01) s = .next { s with ps := ps }) ∧
      exec (.msr d 0x03) s = .next { s with ss := v } ∧
      exec (.msr d 0x04) s = .next { s with vb := v } ∧
      exec (.msr d 0x05) s = .next { s with im := { hardware := v.getLsbD 1, clock := v.getLsbD 0 } } ∧
      exec (.msr d 0x06) s = .next { s with ic := v } ∧
      exec (.msr d 0x07) s = .next { s with fa := v } ∧
      (d.getLsbD 0 = false →
        exec (.msr d 0x08) s = .next { s with tu := w } ∧
        exec (.msr d 0x09) s = .next { s with ts := w } ∧
        exec (.msr d 0x0A) s = .next { s with cl := w } ∧
        exec (.msr d 0x0B) s = .next { s with cc := w } ∧
        exec (.msr d 0x0C) s = .next s))

/-- When MRS and MSR raise an exception: an index above $0C is UndefFault in either mode; a register of index $03 to
$0C in user mode UnprivFault; in supervisor mode a 32-bit register with odd Rd UndefFault. The indices above $0C and
the order of the checks are the spec's decisions D4 and D5 (logs 21 and 22). -/
def Obligations.SpecialTraps : Prop :=
  ∀ (s : State) (d : Reg) (idx : BitVec 5),
    let both := fun (e : FaultCause) =>
      exec (.mrs d idx) s = .next (s.raiseFault e) ∧ exec (.msr d idx) s = .next (s.raiseFault e)
    (0x0D ≤ idx.toNat → both .undef) ∧
    (s.ps.mode = .user → 0x03 ≤ idx.toNat → idx.toNat ≤ 0x0C → both .unpriv) ∧
    (s.ps.mode = .supervisor → 0x08 ≤ idx.toNat → idx.toNat ≤ 0x0C → d.getLsbD 0 = true → both .undef)

/-- PTL and PTS in supervisor mode with TU of the implemented format: the entry of the user table, at the index in
Rm's top four bits or Rm itself, loaded into or stored from the pair; no translation, no register but the loaded
pair, no memory but the stored entry. Pair p is R(2p) low and R(2p+1) high. -/
def Obligations.TableEntryAccess : Prop :=
  ∀ (s : State) (p : Pair) (m : Reg),
    let entry := fun (idx : Nat) => (s.tu &&& 0xFFFFFFC0#32) + BitVec.ofNat 32 (4 * idx)
    let loads := fun (i : Instr) (idx : Nat) =>
      ∃ (v : DWord) (n : Nat),
        (s.ownDWord (entry idx) = true → v = s.dwordAt (entry idx) ∧ n = s.draws) ∧
        exec i s = .next
          { (s.setReg (pairLo p) (v.extractLsb' 0 16)).setReg (pairHi p) (v.extractLsb' 16 16) with draws := n }
    let stores := fun (i : Instr) (idx : Nat) =>
      let t := s.physWrite4 (entry idx) (s.reg (pairHi p) ++ s.reg (pairLo p))
      exec i s = .next t ∧ SameBytesOutside s t (InRange (entry idx) 4)
    ((pairLo p).toNat = 2 * p.toNat ∧ (pairHi p).toNat = 2 * p.toNat + 1) ∧
    decode (0b010100111#9 ++ 0#1 ++ 0#1 ++ m ++ p) = .ok (.ptlV p m) ∧
    decode (0b010100111#9 ++ 0#1 ++ 1#1 ++ m ++ p) = .ok (.ptlI p m) ∧
    decode (0b010100111#9 ++ 1#1 ++ 0#1 ++ m ++ p) = .ok (.ptsV p m) ∧
    decode (0b010100111#9 ++ 1#1 ++ 1#1 ++ m ++ p) = .ok (.ptsI p m) ∧
    (s.ps.mode = .supervisor → s.tu &&& 3#32 = 0#32 →
      loads (.ptlV p m) ((s.reg m).toNat / 4096) ∧ stores (.ptsV p m) ((s.reg m).toNat / 4096) ∧
      ((s.reg m).toNat ≤ 15 → loads (.ptlI p m) (s.reg m).toNat ∧ stores (.ptsI p m) (s.reg m).toNat))

/-- When PTL and PTS raise a PageFault: IC = $0020 for TU of another format, IC = $0000 for an index above 15 in the
`.I` forms, FA = Rm in both. IC and FA are the spec's decision D22 (log 36). -/
def Obligations.TableEntryTraps : Prop :=
  ∀ (s : State) (p : Pair) (m : Reg), s.ps.mode = .supervisor →
    (s.tu &&& 3#32 ≠ 0#32 → ∀ i ∈ [Instr.ptlV p m, .ptlI p m, .ptsV p m, .ptsI p m],
      exec i s = .next (s.raiseFault (.page 0x0020#16 (s.reg m)))) ∧
    (s.tu &&& 3#32 = 0#32 → 15 < (s.reg m).toNat → ∀ i ∈ [Instr.ptlI p m, .ptsI p m],
      exec i s = .next (s.raiseFault (.page 0x0000#16 (s.reg m))))

/-- The privileged instructions in user mode raise UnprivFault, whatever their operands, an undefined HWQ index
included; in supervisor mode an undefined HWQ index raises UndefFault; with the words of HWQ. The order of the checks
is the spec's decision D5 (log 22), the privilege of LOU, LOU.B, SOU and SOU.B D13 (log 30). -/
def Obligations.PrivilegeTraps : Prop :=
  ∀ (s : State) (p : Pair) (d m : Reg) (op : BitVec 6),
    decode (0b0101001101#10 ++ op) = .ok (.hwq op) ∧
    (s.ps.mode = .user →
      ∀ i ∈ [Instr.hwq op, .ptlV p m, .ptlI p m, .ptsV p m, .ptsI p m, .rti, .slp, .lou d m, .louB d m, .sou d m, .souB d m],
        exec i s = .next (s.raiseFault .unpriv)) ∧
    (s.ps.mode = .supervisor →
      (0x04 ≤ op.toNat ∧ op.toNat ≤ 0x0F) ∨ (0x14 ≤ op.toNat ∧ op.toNat ≤ 0x1F) ∨ 0x24 ≤ op.toNat →
      exec (.hwq op) s = .next (s.raiseFault .undef))

/-! ## The System Bus Controller -/

/-- HWQ $00, $01 and $02: the slot count, the memory sizes, and a slot's identification; NO_MEMORY and ERR_NO_DEVICE
where there is none, with R2 to R4 then of any value; nothing else changes. That those outputs are free is U7 (log
45); the totals of HWQ $01 are parameters of their own (log 52). -/
def Obligations.HwqIdentify : Prop :=
  ∀ s : State, s.ps.mode = .supervisor →
    let size := fun (x : Option DWord) => match x with
      | some v => v
      | none => 0xFFFFFFFF#32
    exec (.hwq 0x00) s = .next (s.setReg 0 (BitVec.ofNat 16 (1 + s.platform.slots.length))) ∧
    exec (.hwq 0x01) s = .next
      ((((s.setReg 0 ((size s.platform.ramBytes).extractLsb' 0 16)).setReg 1
        ((size s.platform.ramBytes).extractLsb' 16 16)).setReg 2 ((size s.platform.romBytes).extractLsb' 0 16)).setReg 3
        ((size s.platform.romBytes).extractLsb' 16 16)) ∧
    (∀ info : SlotInfo, s.platform.slotInfo (s.reg 0).toNat = some info →
      exec (.hwq 0x02) s = .next
        ((((s.setReg 1 info.kind).setReg 2 info.manufacturer).setReg 3 info.device).setReg 4 info.flags)) ∧
    (s.platform.slotInfo (s.reg 0).toNat = none →
      ∃ a b c : Word, exec (.hwq 0x02) s = .next
        { (((s.setReg 1 0xFFFF#16).setReg 2 a).setReg 3 b).setReg 4 c with draws := s.draws + 3 })

/-- HWQ $03: MSG_ERROR in R1 where no device is present, else one of the three result codes; nothing else changes.
Which of the three codes a present device answers is free (log 16). -/
def Obligations.HwqMessage : Prop :=
  ∀ s : State, s.ps.mode = .supervisor →
    (s.platform.present (s.reg 0).toNat = false → exec (.hwq 0x03) s = .next (s.setReg 1 0xFFFF#16)) ∧
    (s.platform.present (s.reg 0).toNat = true →
      ∃ code : Word, (code = 0x0001#16 ∨ code = 0x0002#16 ∨ code = 0xFFFF#16) ∧
        exec (.hwq 0x03) s = .next { s.setReg 1 code with draws := s.draws + 1 })

/-- HWQ $10 reads back a slot's window: BAR and size code in R2 and R3. HWQ $11 answers MSG_ERROR and changes nothing
where the device is not present, the size is not supported or the base is not a multiple of the size; is refused where
the window would share a byte with RAM, ROM or another slot's window; and else sets that slot's window alone. The
refusal of an overlap is U8 (log 14), the outputs with no device are free by U7 (log 45); size 0 is the spec's
decision D29 (log 42); that a window may lie over low addresses which small RAM or ROM leaves uncovered is the model's
choice (log 54). -/
def Obligations.HwqWindows : Prop :=
  ∀ (s : State) (info : SlotInfo), s.ps.mode = .supervisor → sparseWf noWindow s.sbc.windows = true →
    let k := (s.reg 0).toNat
    let size := (s.reg 2).toNat % 16
    let base := (s.reg 3).toNat * 65536 + (s.reg 2).toNat / 16 * 16
    let bytes := if size = 0 then 0 else 2 ^ (11 + size)
    let asked : Window := { base := BitVec.ofNat 28 (base / 16), size := BitVec.ofNat 4 size }
    let taken := fun (a : Nat) =>
      s.platform.isRam a = true ∨ s.platform.isRom a = true ∨
        ∃ j, j ≠ k ∧ (s.sbc.window j).start ≤ a ∧ a < (s.sbc.window j).start + (s.sbc.window j).bytes
    let clash := ∃ a, base ≤ a ∧ a < base + bytes ∧ taken a
    (s.platform.slotInfo k = none →
      exec (.hwq 0x11) s = .next (s.setReg 1 0xFFFF#16) ∧
      ∃ a b : Word, exec (.hwq 0x10) s = .next
        { ((s.setReg 1 0xFFFF#16).setReg 2 a).setReg 3 b with draws := s.draws + 2 }) ∧
    (s.platform.slotInfo k = some info →
      exec (.hwq 0x10) s = .next
        (((s.setReg 1 0x0001#16).setReg 2
          (BitVec.ofNat 16 ((s.sbc.window k).start % 65536 + (s.sbc.window k).size.toNat))).setReg 3
          (BitVec.ofNat 16 ((s.sbc.window k).start / 65536))) ∧
      (size ≠ 0 → (BitVec.ofNat 4 size ∉ info.sizes ∨ base % bytes ≠ 0) →
        exec (.hwq 0x11) s = .next (s.setReg 1 0xFFFF#16)) ∧
      (size = 0 ∨ (BitVec.ofNat 4 size ∈ info.sizes ∧ base % bytes = 0) →
        (clash → exec (.hwq 0x11) s = .refused .overlappingWindows) ∧
        (¬clash →
          ∃ ws : List (Nat × Window),
            exec (.hwq 0x11) s = .next { s.setReg 1 0x0001#16 with sbc := { s.sbc with windows := ws } } ∧
            ∀ j, sparseGet noWindow ws j = if j = k then asked else s.sbc.window j)))

/-- HWQ $12 and $13: a slot's interrupt configuration read, and written where the device is present and R2[15:4] is
zero; else MSG_ERROR and no change. The answer to non-zero reserved bits is the spec's decision D29 (log 42), that no
other value is rejected the model's choice (log 51). -/
def Obligations.HwqInterrupts : Prop :=
  ∀ s : State, s.ps.mode = .supervisor → sparseWf 0#4 s.sbc.configs = true →
    let k := (s.reg 0).toNat
    (s.platform.present k = false →
      exec (.hwq 0x12) s = .next (s.setReg 1 0xFFFF#16) ∧ exec (.hwq 0x13) s = .next (s.setReg 1 0xFFFF#16)) ∧
    (s.platform.present k = true →
      exec (.hwq 0x12) s = .next (s.setReg 1 (BitVec.ofNat 16 (s.sbc.config k).toNat)) ∧
      (16 ≤ (s.reg 2).toNat → exec (.hwq 0x13) s = .next (s.setReg 1 0xFFFF#16)) ∧
      ((s.reg 2).toNat < 16 →
        ∃ cs : List (Nat × BitVec 4),
          exec (.hwq 0x13) s = .next { s.setReg 1 0x0001#16 with sbc := { s.sbc with configs := cs } } ∧
          ∀ j, sparseGet 0#4 cs j = if j = k then BitVec.ofNat 4 (s.reg 2).toNat else s.sbc.config j))

/-- HWQ $20: the time in the format of R536 where the platform has a clock, else any values in R0, R1 and R2; nothing
else changes. The unused bits are zero by the spec's decision D9 (log 26), the values with no clock free by U9 (log
45). -/
def Obligations.HwqClock : Prop :=
  ∀ s : State, s.ps.mode = .supervisor →
    let t := s.sbc.rtc
    (s.platform.rtcPresent = true →
      exec (.hwq 0x20) s = .next
        (((s.setReg 0 (BitVec.ofNat 16 (t.year.toNat * 256 + t.month.val))).setReg 1
          (BitVec.ofNat 16 (t.day.val * 256 + t.hour.val))).setReg 2
          (BitVec.ofNat 16 (t.minute.val * 256 + t.second.val)))) ∧
    (s.platform.rtcPresent = false →
      ∃ a b c : Word, exec (.hwq 0x20) s = .next
        { ((s.setReg 0 a).setReg 1 b).setReg 2 c with draws := s.draws + 3 })

/-- HWQ $21, $22 and $23: the NVRAM's size, a byte written, a byte read; MSG_ERROR where there is no NVRAM, the offset
is not below its size or (for a write) the environment prevents it, outputs the rule leaves open then of any value.
The outputs left open are free by U7 (log 45); that the environment prevents a write through two bits of the state is
the model's choice (log 49). -/
def Obligations.HwqNvram : Prop :=
  ∀ s : State, s.ps.mode = .supervisor → s.sbc.nvram.wf = true →
    let off := (s.reg 3).toNat * 65536 + (s.reg 2).toNat
    (s.platform.nvramBytes = none →
      (∃ a b : Word, exec (.hwq 0x21) s = .next
        { ((s.setReg 1 0xFFFF#16).setReg 2 a).setReg 3 b with draws := s.draws + 2 }) ∧
      exec (.hwq 0x22) s = .next (s.setReg 1 0xFFFF#16) ∧
      ∃ a : Word, exec (.hwq 0x23) s = .next { (s.setReg 1 0xFFFF#16).setReg 0 a with draws := s.draws + 1 }) ∧
    (∀ bytes : DWord, s.platform.nvramBytes = some bytes →
      exec (.hwq 0x21) s = .next
        (((s.setReg 1 0x0001#16).setReg 2 (bytes.extractLsb' 0 16)).setReg 3 (bytes.extractLsb' 16 16)) ∧
      (bytes.toNat ≤ off ∨ s.sbc.nvramProtected = true ∨ s.sbc.nvramFailing = true →
        exec (.hwq 0x22) s = .next (s.setReg 1 0xFFFF#16)) ∧
      (off < bytes.toNat → s.sbc.nvramProtected = false → s.sbc.nvramFailing = false →
        ∃ m : Memory,
          exec (.hwq 0x22) s = .next { s.setReg 1 0x0001#16 with sbc := { s.sbc with nvram := m } } ∧
          ∀ a, m.read a = if a = off then BitVec.ofNat 8 (s.reg 0).toNat else s.sbc.nvram.read a) ∧
      (bytes.toNat ≤ off →
        ∃ a : Word, exec (.hwq 0x23) s = .next { (s.setReg 1 0xFFFF#16).setReg 0 a with draws := s.draws + 1 }) ∧
      (off < bytes.toNat →
        exec (.hwq 0x23) s = .next
          ((s.setReg 1 0x0001#16).setReg 0 (BitVec.ofNat 16 (s.sbc.nvram.read off).toNat))))

/-- The device presented as HWI is present, requests, has EN = 1, and has the greatest PRI, the lowest slot among equals;
none is presented only where no device is eligible. -/
def Obligations.HwiSelection : Prop :=
  ∀ s : State, sparseWf false s.sbc.irq = true →
    let eligible := fun (k : Nat) =>
      s.platform.present k = true ∧ s.sbc.request k = true ∧ (s.sbc.config k).getLsbD 0 = true
    let pri := fun (k : Nat) => (s.sbc.config k).toNat / 2
    (s.hwiCandidate = none → ∀ k, ¬eligible k) ∧
    (∀ k, s.hwiCandidate = some k →
      eligible k ∧ ∀ j, eligible j → pri j < pri k ∨ (pri j = pri k ∧ k ≤ j))

/-! ## Exceptions -/

/-- SWI and BRK are the entry of vectors $09 and $0A with their cause words, a fault inside it being raised at the
level the entry has set. With the MMU off, SS and VB even and the vector in memory: the frame below SS, the vector's
handler, IC, and the level raised to 3 or 4 if it was lower; nothing else changes. The PC pushed is the spec's
decision D7 (log 24), the zero bits of IC D9 (log 26), a fault inside the entry D24 (log 37). -/
def Obligations.TrapEntry : Prop :=
  ∀ (s : State) (imm : BitVec 6),
    let user := if s.ps.mode = .user then 1 else 0
    let enters := fun (i : Instr) (event : Interrupt) (cause : Word) =>
      exec i s = match s.enter event cause none with
        | .done _ t => .next t
        | .abort e t => .next (t.raiseFault e)
    decode (0b0101000011#10 ++ 0x02#6) = .ok .swi ∧ decode (0b0101000010#10 ++ imm) = .ok (.brk imm) ∧
    enters .swi .swi (BitVec.ofNat 16 user) ∧ enters (.brk imm) .breakpoint (BitVec.ofNat 16 (4 * imm.toNat + user)) ∧
    (s.entryPlain .swi = true →
      exec .swi s = .next (s.entered .swi (BitVec.ofNat 16 user) (if s.ps.level.toNat < 3 then 3#3 else s.ps.level))) ∧
    (s.entryPlain .breakpoint = true →
      exec (.brk imm) s = .next
        (s.entered .breakpoint (BitVec.ofNat 16 (4 * imm.toNat + user))
          (if s.ps.level.toNat < 4 then 4#3 else s.ps.level)))

/-- A first-level fault at level 5 or lower enters its own vector at level 6, at level 6 the DoubleFault vector at
level 7 with IC zero, at level 7 makes Reset pending and changes nothing else; a fault inside an entry is raised at
the level that entry has set; FA is the address for a PageFault and any value for the others. Said also with the entry
written out, for the MMU off, SS and VB even and the vector in memory. A fault inside an entry is the spec's decision
D24 (log 37), the PC pushed D7 (log 24), the zero bits of IC D9 (log 26); FA of other faults is free (log 43). -/
def Obligations.FaultEscalation : Prop :=
  ∀ (s : State) (e : FaultCause),
    let user := if s.ps.mode = .user then 1#16 else 0#16
    let event : Interrupt := match e with
      | .unpriv => .unpriv
      | .undef => .undef
      | .page _ _ => .page
      | .divZero => .divZero
      | .align => .align
    (s.ps.level.toNat ≤ 5 →
      ∃ (cause fa : Word) (n : Nat),
        (∀ c a, e = .page c a → cause = c ∧ fa = a ∧ n = s.draws) ∧
        ((∀ c a, e ≠ .page c a) → cause = user ∧ n = s.draws + 1) ∧
        s.raiseFault e = match { s with draws := n }.enter event cause (some fa) with
          | .done _ t => t
          | .abort x t => t.raiseFault x) ∧
    (s.ps.level.toNat = 6 →
      ∃ fa : Word, s.raiseFault e = match { s with draws := s.draws + 1 }.enter .double 0#16 (some fa) with
        | .done _ t => t
        | .abort _ t => { t with resetPending := true }) ∧
    (s.ps.level.toNat ≤ 5 → s.entryPlain event = true →
      (∀ cause address, e = .page cause address →
        s.raiseFault e = { s.entered .page cause 6#3 with fa := address }) ∧
      ((∀ cause address, e ≠ .page cause address) →
        ∃ free : Word, s.raiseFault e =
          { s.entered event user 6#3 with fa := free, draws := s.draws + 1 })) ∧
    (s.ps.level.toNat = 6 → s.entryPlain .double = true →
      ∃ free : Word, s.raiseFault e = { s.entered .double 0#16 7#3 with fa := free, draws := s.draws + 1 }) ∧
    (s.ps.level.toNat = 7 → s.raiseFault e = { s with resetPending := true })

/-- What a completed entry changes, with the MMU on or off: PC, PS.P, PS.L, SS, IC, FA where an address is given, IM.C on a
Timer entry and the sleep state; no general register, SU, VB, TU, TS, CL, CC, PS.M, PS.I, flag, ROM or SBC state. -/
def Obligations.EntryEffect : Prop :=
  ∀ (s t : State) (i : Interrupt) (cause : Word) (address : Option Word), s.enter i cause address = .done () t →
    t =
      { s with
        pc := t.pc, ram := t.ram, draws := t.draws
        ps := { s.ps with mode := .supervisor, level := t.ps.level }
        ss := s.ss - 6#16
        ic := cause
        fa := address.getD s.fa
        im := { s.im with clock := s.im.clock && decide (i ≠ .timer) }
        asleep := false } ∧
    t.ps.level.toNat =
      match i with
      | .hwi => 1
      | .timer => 2
      | .swi => max s.ps.level.toNat 3
      | .breakpoint => max s.ps.level.toNat 4
      | .debugQuery => max s.ps.level.toNat 5
      | .unpriv | .undef | .page | .divZero | .align => 6
      | .double => 7

/-- The entry sequence with the MMU on or off: mode and level, IM.C on a Timer entry and FA where an address is given are set
first, then PC, the old PS and IC are pushed from SS down with supervisor privilege, then SS and IC are written, then PC
is read at VB + 2*N, and the sleep ends; an access that faults ends it where it stands. With the MMU off and RAM below
SS: PC at SS - 2, PS at SS - 4, IC at SS - 6, and no other byte of memory changed. What an entry that faults leaves is
the spec's decision D24 (log 37). -/
def Obligations.EntryFrame : Prop :=
  ∀ (s : State) (i : Interrupt) (cause : Word) (address : Option Word),
    let number : Word := match i with
      | .timer => 0x01
      | .unpriv => 0x02
      | .undef => 0x03
      | .page => 0x04
      | .divZero => 0x05
      | .align => 0x06
      | .double => 0x07
      | .hwi => 0x08
      | .swi => 0x09
      | .breakpoint => 0x0A
      | .debugQuery => 0x0B
    let raised := fun (own : BitVec 3) => if s.ps.level.toNat < own.toNat then own else s.ps.level
    let level : BitVec 3 := match i with
      | .hwi => 1
      | .timer => 2
      | .swi => raised 3
      | .breakpoint => raised 4
      | .debugQuery => raised 5
      | .unpriv | .undef | .page | .divZero | .align => 6
      | .double => 7
    let begun : State :=
      { s with
        im := { s.im with clock := s.im.clock && decide (i ≠ .timer) }
        fa := address.getD s.fa
        ps := { s.ps with mode := .supervisor, level := level } }
    let pushes := begun.pushWords .supervisor s.ss [s.pc, s.ps.toWord, s.ic]
    i.vector = number ∧
    (s.enter i cause address = match pushes with
      | .abort e t => .abort e t
      | .done sp t =>
        match { t with ss := sp, ic := cause }.popWords .supervisor (s.vb + 2#16 * number) 1 with
        | .abort e u => .abort e u
        | .done words u => .done () { u with pc := words.getD 0 0#16, asleep := false }) ∧
    (∀ (e : FaultCause) (t : State), pushes = .abort e t → SameButMemory begun t) ∧
    (∀ (sp : Word) (t : State), pushes = .done sp t → sp = s.ss - 6#16 ∧ SameButMemory begun t) ∧
    (∀ t : State, s.ps.mmu = false → s.ram.wf = true →
      s.ramWord ((s.ss - 2#16).setWidth 32) = true → s.ramWord ((s.ss - 4#16).setWidth 32) = true →
      s.ramWord ((s.ss - 6#16).setWidth 32) = true → s.enter i cause address = .done () t →
      t.wordAt ((s.ss - 2#16).setWidth 32) = s.pc ∧ t.wordAt ((s.ss - 4#16).setWidth 32) = s.ps.toWord ∧
      t.wordAt ((s.ss - 6#16).setWidth 32) = s.ic ∧ t.ss = s.ss - 6#16 ∧
      SameBytesOutside s t (StackBytes (s.ss - 6#16) 6))

/-- RTI in supervisor mode: IC, PS and PC popped from SS, SS six further, and nothing else; refused where the PS word
has bit 15 set; a fault on a pop is raised with the registers as they were. With the MMU off, SS even and the frame in
memory the words are those at SS, SS + 2 and SS + 4; an odd SS is an AlignFault. The refusal of PS.P = 10 or 11 is U3
(log 13), the bits 11:7 of PS D11 (log 13), what a fault leaves D8 (log 25), alignment before translation D5 (log 22).
-/
def Obligations.ReturnFromInterrupt : Prop :=
  ∀ s : State, s.ps.mode = .supervisor →
    let at_ := fun (k : Nat) => s.wordAt ((s.ss + BitVec.ofNat 16 k).setWidth 32)
    decode (0b0101000011#10 ++ 0x01#6) = .ok .rti ∧
    (s.ss.getLsbD 0 = true → exec .rti s = .next (s.raiseFault .align)) ∧
    (∀ (e : FaultCause) (u : State), s.popWords .supervisor s.ss 3 = .abort e u →
      exec .rti s = .next (u.raiseFault e) ∧ SameButMemory s u) ∧
    (∀ (ic psWord pc : Word) (u : State), s.popWords .supervisor s.ss 3 = .done [ic, psWord, pc] u →
      SameButMemory s u ∧
      (psWord.getLsbD 15 = true → exec .rti s = .refused .reservedMode) ∧
      (psWord.getLsbD 15 = false →
        ∃ ps : Status, ps.toWord = psWord &&& 0xF07F#16 ∧
          exec .rti s = .next { u with ss := s.ss + 6#16, ic := ic, ps := ps, pc := pc })) ∧
    (s.ps.mmu = false → s.ss.getLsbD 0 = false → s.ownFrame 3 = true →
      ((at_ 2).getLsbD 15 = true → exec .rti s = .refused .reservedMode) ∧
      ((at_ 2).getLsbD 15 = false →
        ∃ ps : Status, ps.toWord = at_ 2 &&& 0xF07F#16 ∧
          exec .rti s = .next { s with ss := s.ss + 6#16, ic := at_ 0, ps := ps, pc := at_ 4 }))

/-- RTI undoes SWI: from any state whose entry is plain and whose stack below SS is RAM, RTI in the handler's first state
gives back PC, PS, IC and SS, with all memory outside the frame as it was. -/
def Obligations.SwiThenRti : Prop :=
  ∀ s t : State, s.entryPlain .swi = true → s.ram.wf = true →
    s.ramWord ((s.ss - 2#16).setWidth 32) = true → s.ramWord ((s.ss - 4#16).setWidth 32) = true →
    s.ramWord ((s.ss - 6#16).setWidth 32) = true → exec .swi s = .next t →
    exec .rti t = .next { s with ram := t.ram, asleep := false } ∧ SameBytesOutside s t (StackBytes (s.ss - 6#16) 6)

/-! ## The boundary -/

/-- What a boundary does, in order: Reset, a latched DebugQuery, the Timer (enabled, CL at or past CC, level below 2),
the HWI (enabled, level 0, a candidate), sleep, an instruction. And what the environment's events before it do, one
after another: a DEBUG level latches a DebugQuery exactly on a low-to-high change, a high RESET level makes Reset
pending, a request line, the clock and the NVRAM's conditions are set, and nothing else changes. The order of Timer
before HWI and of the sleep is the spec's decision D21 (log 23), the edge of DEBUG and the level of RESET D28 (log 41);
the list of events is the model's choice (log 11), the NVRAM's conditions among them (log 49). -/
def Obligations.BoundaryOrder : Prop :=
  ∀ s : State,
    let timer := s.ps.ie = true ∧ s.im.clock = true ∧ s.cc.toNat ≤ s.cl.toNat ∧ s.ps.level.toNat < 2
    let hwi := s.ps.ie = true ∧ s.im.hardware = true ∧ s.ps.level.toNat = 0
    let reset := s.resetPending = true ∨ s.resetLine = true
    (s.boundary = .reset ↔ reset) ∧
    (s.boundary = .debugQuery ↔ ¬reset ∧ s.debugLatch = true) ∧
    (s.boundary = .timer ↔ ¬reset ∧ s.debugLatch = false ∧ timer) ∧
    (∀ k, s.boundary = .hwi k ↔ ¬reset ∧ s.debugLatch = false ∧ ¬timer ∧ hwi ∧ s.hwiCandidate = some k) ∧
    (s.boundary = .sleep ↔
      ¬reset ∧ s.debugLatch = false ∧ ¬timer ∧ ¬(hwi ∧ s.hwiCandidate ≠ none) ∧ s.asleep = true) ∧
    (s.boundary = .run ↔
      ¬reset ∧ s.debugLatch = false ∧ ¬timer ∧ ¬(hwi ∧ s.hwiCandidate ≠ none) ∧ s.asleep = false) ∧
    (∀ high : Bool,
      let t := s.applyEvent (.debugLine high)
      (t.debugLatch = true ↔ s.debugLatch = true ∨ (s.debugLine = false ∧ high = true)) ∧
      t = { s with debugLine := high, debugLatch := t.debugLatch }) ∧
    (∀ high : Bool,
      let t := s.applyEvent (.resetLine high)
      (t.resetPending = true ↔ s.resetPending = true ∨ high = true) ∧
      t = { s with resetLine := high, resetPending := t.resetPending }) ∧
    (∀ (slot : Nat) (asserted : Bool),
      let t := s.applyEvent (.irqLine slot asserted)
      (sparseWf false s.sbc.irq = true → ∀ k, t.sbc.request k = if k = slot then asserted else s.sbc.request k) ∧
      t = { s with sbc := { s.sbc with irq := t.sbc.irq } }) ∧
    (∀ time : RtcTime, s.applyEvent (.clock time) = { s with sbc := { s.sbc with rtc := time } }) ∧
    (∀ on : Bool, s.applyEvent (.nvramProtect on) = { s with sbc := { s.sbc with nvramProtected := on } }) ∧
    (∀ on : Bool, s.applyEvent (.nvramFail on) = { s with sbc := { s.sbc with nvramFailing := on } }) ∧
    (s.inputs = [] → s.takeInputs = s) ∧
    (∀ rest, s.inputs = [] :: rest → s.takeInputs = { s with inputs := rest }) ∧
    (∀ e events rest, s.inputs = (e :: events) :: rest →
      s.takeInputs = { s.applyEvent e with inputs := events :: rest }.takeInputs)

/-- A step whose boundary takes an asynchronous interrupt is its entry, with IC zero or the slot, the DebugQuery latch
cleared and the sleep ended, a fault inside the entry being raised at the level the entry has set; CL is further by a
positive amount. Said also with a plain entry written out: the level of the interrupt, the Timer's IM.C cleared. A step
asleep changes CL alone. The latched DebugQuery and its clearing are the spec's decision D28 (log 41), a fault inside
the entry D24 (log 37), the amount CL advances by is open, D20 (log 17). -/
def Obligations.AsynchronousStep : Prop :=
  ∀ s : State,
    let t := s.takeInputs
    let enters := fun (q : State) (event : Interrupt) (cause : Word) =>
      let u := match q.enter event cause none with
        | .done _ r => r
        | .abort e r => r.raiseFault e
      ∃ n > 0, step s = .next { u with cl := u.cl + BitVec.ofNat 32 n, draws := u.draws + 1 }
    (t.boundary = .timer → enters { t with asleep := false } .timer 0#16) ∧
    (∀ k, t.boundary = .hwi k → enters { t with asleep := false } .hwi (BitVec.ofNat 16 k)) ∧
    (t.boundary = .debugQuery → enters { t with asleep := false, debugLatch := false } .debugQuery 0#16) ∧
    (t.boundary = .timer → t.entryPlain .timer = true →
      ∃ n > 0, step s = .next
        { t.entered .timer 0#16 2#3 with cl := t.cl + BitVec.ofNat 32 n, draws := t.draws + 1 }) ∧
    (∀ k, t.boundary = .hwi k → t.entryPlain .hwi = true →
      ∃ n > 0, step s = .next
        { t.entered .hwi (BitVec.ofNat 16 k) 1#3 with cl := t.cl + BitVec.ofNat 32 n, draws := t.draws + 1 }) ∧
    (t.boundary = .debugQuery → t.entryPlain .debugQuery = true →
      ∃ n > 0, step s = .next
        { t.entered .debugQuery 0#16 (if t.ps.level.toNat < 5 then 5#3 else t.ps.level) with
          debugLatch := false, cl := t.cl + BitVec.ofNat 32 n, draws := t.draws + 1 }) ∧
    (t.boundary = .sleep →
      ∃ n > 0, step s = .next { t with cl := t.cl + BitVec.ofNat 32 n, draws := t.draws + 1 })

/-- A Reset step: PS = $4000, VB = $FFE0, IC = 0, PC the word at physical $0000FFE0, the sleep and the DebugQuery
latch cleared, Reset no longer pending unless the line is high; ROM, NVRAM, clock and platform kept. IC = 0 is the
spec's decision D16 (log 33), the DebugQuery latch and that a high RESET line keeps Reset pending D28 (log 41). -/
def Obligations.ResetStep : Prop :=
  ∀ s : State, s.takeInputs.boundary = .reset →
    ∃ t : State, step s = .next t ∧
      t.ps.toWord = 0x4000#16 ∧ t.vb = 0xFFE0#16 ∧ t.ic = 0x0000#16 ∧ t.asleep = false ∧ t.debugLatch = false ∧
      t.resetPending = s.takeInputs.resetLine ∧
      (t.ownWord 0x0000FFE0#32 = true → t.pc = t.wordAt 0x0000FFE0#32) ∧
      t.rom = s.rom ∧ t.platform = s.platform ∧ t.sbc.nvram = s.sbc.nvram ∧ t.sbc.rtc = s.takeInputs.sbc.rtc ∧
      t.sbc.irq = s.takeInputs.sbc.irq

/-! ## Memory and translation -/

/-- Translation: the logical address itself with the MMU off; else through the entry of TU for user privilege or TS
for supervisor privilege, a refused access a PageFault with the cause bits of R125, a permitted one the frame and the
offset, with A and D written back; and an odd word address is an AlignFault before any translation. Alignment before
translation is the spec's decision D5 (log 22), the written-back A and D bits D17 (log 34), the cause bits D10 (log
27). -/
def Obligations.Translation : Prop :=
  ∀ (s : State) (p : Privilege) (k : AccessKind) (va : Word),
    (s.tableRegister .user = s.tu ∧ s.tableRegister .supervisor = s.ts) ∧
    (s.ps.mmu = false → s.translate p k va = .done (va.setWidth 32) s) ∧
    (s.allows p k va = true → s.translate p k va = .done (s.physical p va) (s.touched p k va)) ∧
    (s.denies p k va = true → s.translate p k va = .abort (.page (s.pageFaultCause p k va) va) s) ∧
    (va.getLsbD 0 = true → s.translateWord p k va = .abort .align s) ∧
    (va.getLsbD 0 = false → s.translateWord p k va = s.translate p k va)

/-- Physical memory. What an address is: RAM or ROM where the platform has it (below 64 KiB RAM from $0000, at most to $7FFF,
and ROM up to $FFFF, at most from $C000), else in the window that covers it, else not connected. RAM keeps a written
byte, word or 32-bit value and shows it byte by byte, low byte first, other bytes are unchanged; ROM, unconnected
addresses and windows leave memory unchanged on a write; unconnected addresses read zero, windows any byte; words and
32-bit values are read low byte first. What an unconnected address reads as is the spec's decision D25 (log 38); that a
write in a window changes nothing in the state is the model's choice, the device being outside the machine (log 15), and
so is a window over low addresses that small RAM or ROM leaves uncovered (log 54), and that a byte which a platform
claims for both RAM and ROM is RAM (log 10). -/
def Obligations.PhysicalMemory : Prop :=
  ∀ (s : State) (a : DWord) (v : Word) (w : DWord), s.ram.wf = true →
    let n := a.toNat
    let high := fun (l : List Region) => ∃ r ∈ l, r.base ≤ n ∧ n < r.base + r.size
    let isRam := if n < 0x10000 then n < 0x8000 ∧ n < s.platform.lowRam else high s.platform.highRam
    let isRom := if n < 0x10000 then 0xC000 ≤ n ∧ 0x10000 ≤ n + s.platform.lowRom else high s.platform.highRom
    let inWindow := fun (k : Nat) => (s.sbc.window k).start ≤ n ∧ n < (s.sbc.window k).start + (s.sbc.window k).bytes
    (s.kindAt a = .ram ↔ isRam) ∧ (s.kindAt a = .rom ↔ ¬isRam ∧ isRom) ∧
    (sparseWf noWindow s.sbc.windows = true →
      (∀ k, s.kindAt a = .window k → ¬isRam ∧ ¬isRom ∧ inWindow k) ∧
      (s.kindAt a = .unconnected ↔ ¬isRam ∧ ¬isRom ∧ ∀ k, ¬inWindow k)) ∧
    (s.ramWord a = true →
      (s.physWrite2 a v).wordAt a = v ∧ (s.physWrite2 a v).byteAt a = BitVec.ofNat 8 v.toNat ∧
      (s.physWrite2 a v).byteAt (a + 1#32) = BitVec.ofNat 8 (v.toNat / 256)) ∧
    (s.kindAt a = .ram → ∀ b : Byte, (s.physWrite1 a b).byteAt a = b) ∧
    (s.ramWord a = true → s.ramWord (a + 2#32) = true →
      (s.physWrite4 a w).dwordAt a = w ∧ (s.physWrite4 a w).wordAt a = w.extractLsb' 0 16) ∧
    (∀ b : Byte, SameBytesOutside s (s.physWrite1 a b) (InRange a 1)) ∧
    SameBytesOutside s (s.physWrite2 a v) (InRange a 2) ∧ SameBytesOutside s (s.physWrite4 a w) (InRange a 4) ∧
    (∀ b : Byte, s.kindAt a ≠ .ram → s.physWrite1 a b = s) ∧
    (s.kindAt a = .ram → s.physRead1 a = (s.ram.read a.toNat, s)) ∧
    (s.kindAt a = .rom → s.physRead1 a = (s.rom.read a.toNat, s)) ∧
    (s.kindAt a = .unconnected → s.physRead1 a = (0#8, s)) ∧
    (∀ k, s.kindAt a = .window k → ∃ b : Byte, s.physRead1 a = (b, { s with draws := s.draws + 1 })) ∧
    (s.ownWord a = true → s.physRead2 a = (s.wordAt a, s)) ∧ (s.ownDWord a = true → s.physRead4 a = (s.dwordAt a, s))

/-- A fetch: an odd PC is an AlignFault, a refused page a PageFault, PC unchanged in both; else the word at PC, of
any value in a device window (log 15). A fetch that faults raises its fault and CL is further by an open positive
amount, D20 (log 17). That PC is unchanged when a fetch faults is the spec's decision D7 (log 24), alignment before
translation D5 (log 22), the cause bits D10 (log 27), the written-back A bit D17 (log 34). -/
def Obligations.FetchWord : Prop :=
  ∀ s : State,
    let p := s.ps.mode
    (s.pc.getLsbD 0 = true → s.fetch s.pc = .abort .align s) ∧
    (s.pc.getLsbD 0 = false → s.denies p .exec s.pc = true →
      s.fetch s.pc = .abort (.page (s.pageFaultCause p .exec s.pc) s.pc) s) ∧
    (s.pc.getLsbD 0 = false → s.allows p .exec s.pc = true →
      ∃ (w : Word) (n : Nat),
        (s.ownWord (s.physical p s.pc) = true →
          w = (s.touched p .exec s.pc).wordAt (s.physical p s.pc) ∧ n = s.draws) ∧
        s.fetch s.pc = .done w { s.touched p .exec s.pc with draws := n }) ∧
    (∀ (e : FaultCause) (t : State), s.takeInputs.boundary = .run →
      s.takeInputs.fetch s.takeInputs.pc = .abort e t → t.pc = s.takeInputs.pc ∧ step s = .next (t.raiseFault e).idleTick)

/-! ## Whole-machine rules -/

/-- Every step keeps the invariant: canonical contents, RAM entries at RAM addresses, legal and disjoint windows,
interrupt configurations and NVRAM bytes only where the platform has them. That the windows are legal and disjoint
after a Reset step is the model's choice (log 47), after HWQ $11 the refusal of U8 (log 14). -/
def Obligations.StepKeepsInv : Prop := ∀ s t : State, s.inv = true → step s = .next t → t.inv = true

/-- The state after reset satisfies the invariant. The values of State.reset that the spec leaves open are the model's
(logs 1 to 11). -/
def Obligations.ResetInv : Prop := State.reset.inv = true

/-- No step changes ROM or the platform. -/
def Obligations.RomFixed : Prop := ∀ s t : State, step s = .next t → t.rom = s.rom ∧ t.platform = s.platform

/-- An instruction executed in user mode that ends in user mode has changed no privileged register, no PS field but the
flags, and nothing of the SBC; one that ends in supervisor mode has just completed the entry of a handler at level 3 or
above, or is at level 7 with Reset pending (a fault inside the DoubleFault entry), with PS.M and PS.I kept. -/
def Obligations.UserIsolation : Prop :=
  ∀ (i : Instr) (s t : State), s.ps.mode = .user → exec i s = .next t →
    t.rom = s.rom ∧ t.sbc = s.sbc ∧ t.vb = s.vb ∧ t.tu = s.tu ∧ t.ts = s.ts ∧ t.cl = s.cl ∧ t.cc = s.cc ∧ t.im = s.im ∧
    t.ps.mmu = s.ps.mmu ∧ t.ps.ie = s.ps.ie ∧
    (t.ps.mode = .user → t.ss = s.ss ∧ t.ic = s.ic ∧ t.fa = s.fa ∧ t.asleep = s.asleep ∧ t.ps.level = s.ps.level) ∧
    (t.ps.mode = .supervisor →
      3 ≤ t.ps.level.toNat ∧
      ((∃ (q : State) (event : Interrupt) (cause : Word) (address : Option Word), q.enter event cause address = .done () t) ∨
        (t.resetPending = true ∧ t.ps.level.toNat = 7)))
end

