-- ==== Sys2Proof/Laws/Memory.lean ====
section
/-! SUPPORT. Laws of the sparse contents: reading after writing, and every operation keeps the canonical form. -/

namespace Sys2Proof.Laws

open Sys2Proof.Machine

variable {α : Type} [DecidableEq α]

theorem sparseGet_of_wfFrom_lt (dflt : α) :
    ∀ (m : List (Nat × α)) (low a : Nat), sparseWfFrom dflt low m = true → a < low → sparseGet dflt m a = dflt
  | [], _, _, _, _ => rfl
  | (k, v) :: rest, low, a, h, hlt => by
    simp only [sparseWfFrom, Bool.and_eq_true, decide_eq_true_eq] at h
    have hne : a ≠ k := by omega
    simp only [sparseGet, hne, if_false]
    exact sparseGet_of_wfFrom_lt dflt rest (k + 1) a h.2 (by omega)

theorem sparseWfFrom_mono (dflt : α) :
    ∀ (m : List (Nat × α)) (low low' : Nat), low' ≤ low → sparseWfFrom dflt low m = true → sparseWfFrom dflt low' m = true
  | [], _, _, _, _ => rfl
  | (k, v) :: rest, low, low', hle, h => by
    simp only [sparseWfFrom, Bool.and_eq_true, decide_eq_true_eq] at h ⊢
    exact ⟨⟨by omega, h.1.2⟩, h.2⟩

theorem sparseInsert_wfFrom (dflt : α) (a : Nat) (v : α) (hv : v ≠ dflt) :
    ∀ (m : List (Nat × α)) (low : Nat), low ≤ a → sparseWfFrom dflt low m = true →
      sparseWfFrom dflt low (sparseInsert m a v) = true
  | [], low, hle, _ => by simp [sparseInsert, sparseWfFrom, hle, hv]
  | (k, w) :: rest, low, hle, h => by
    simp only [sparseWfFrom, Bool.and_eq_true, decide_eq_true_eq] at h
    simp only [sparseInsert]
    split
    · rename_i hlt
      simp only [sparseWfFrom, Bool.and_eq_true, decide_eq_true_eq]
      exact ⟨⟨hle, hv⟩, ⟨by omega, h.1.2⟩, h.2⟩
    · split
      · rename_i _ heq
        subst heq
        simp only [sparseWfFrom, Bool.and_eq_true, decide_eq_true_eq]
        exact ⟨⟨hle, hv⟩, h.2⟩
      · rename_i hlt hne
        simp only [sparseWfFrom, Bool.and_eq_true, decide_eq_true_eq]
        exact ⟨h.1, sparseInsert_wfFrom dflt a v hv rest (k + 1) (by omega) h.2⟩

theorem sparseErase_wfFrom (dflt : α) (a : Nat) :
    ∀ (m : List (Nat × α)) (low : Nat), sparseWfFrom dflt low m = true → sparseWfFrom dflt low (sparseErase m a) = true
  | [], _, _ => rfl
  | (k, w) :: rest, low, h => by
    simp only [sparseWfFrom, Bool.and_eq_true, decide_eq_true_eq] at h
    simp only [sparseErase]
    split
    · exact sparseWfFrom_mono dflt rest (k + 1) low (by omega) h.2
    · simp only [sparseWfFrom, Bool.and_eq_true, decide_eq_true_eq]
      exact ⟨h.1, sparseErase_wfFrom dflt a rest (k + 1) h.2⟩

/-- Writing keeps the canonical form. -/
theorem sparseSet_wf (dflt : α) (m : List (Nat × α)) (a : Nat) (v : α) (h : sparseWf dflt m = true) :
    sparseWf dflt (sparseSet dflt m a v) = true := by
  unfold sparseSet
  split
  · exact sparseErase_wfFrom dflt a m 0 h
  · rename_i hv
    exact sparseInsert_wfFrom dflt a v hv m 0 (by omega) h

omit [DecidableEq α] in
theorem sparseGet_insert (dflt : α) (a : Nat) (v : α) :
    ∀ (m : List (Nat × α)) (b : Nat),
      sparseGet dflt (sparseInsert m a v) b = if b = a then v else sparseGet dflt m b
  | [], b => by simp [sparseInsert, sparseGet]
  | (k, w) :: rest, b => by
    simp only [sparseInsert]
    split
    · simp [sparseGet]
    · split
      · rename_i _ heq
        subst heq
        simp only [sparseGet]
        split <;> simp_all
      · rename_i hlt hne
        simp only [sparseGet, sparseGet_insert dflt a v rest b]
        by_cases hb : b = k
        · have : ¬ b = a := by omega
          simp [hb, Ne.symm hne]
        · simp [hb]

theorem sparseGet_erase (dflt : α) (a : Nat) :
    ∀ (m : List (Nat × α)) (low b : Nat), sparseWfFrom dflt low m = true →
      sparseGet dflt (sparseErase m a) b = if b = a then dflt else sparseGet dflt m b
  | [], _, b, _ => by simp [sparseErase, sparseGet]
  | (k, w) :: rest, low, b, h => by
    simp only [sparseWfFrom, Bool.and_eq_true, decide_eq_true_eq] at h
    simp only [sparseErase]
    split
    · rename_i heq
      subst heq
      by_cases hb : b = a
      · subst hb
        simpa using sparseGet_of_wfFrom_lt dflt rest (b + 1) b h.2 (by omega)
      · simp [sparseGet, hb]
    · rename_i hne
      simp only [sparseGet, sparseGet_erase dflt a rest (k + 1) b h.2]
      by_cases hb : b = k
      · have : ¬ b = a := by omega
        simp [hb, Ne.symm hne]
      · simp [hb]

/-- Reading after writing, in the canonical form: the written place holds the value, every other place what it held. -/
theorem sparseGet_set (dflt : α) (m : List (Nat × α)) (a b : Nat) (v : α) (h : sparseWf dflt m = true) :
    sparseGet dflt (sparseSet dflt m a v) b = if b = a then v else sparseGet dflt m b := by
  unfold sparseSet
  split
  · rename_i hv
    rw [sparseGet_erase dflt a m 0 b h, hv]
  · exact sparseGet_insert dflt a v m b

omit [DecidableEq α] in
/-- In any list, writing leaves the value read at every other place. -/
theorem sparseGet_erase_of_ne (dflt : α) (a b : Nat) (hne : b ≠ a) :
    ∀ m : List (Nat × α), sparseGet dflt (sparseErase m a) b = sparseGet dflt m b
  | [] => rfl
  | (k, w) :: rest => by
    simp only [sparseErase]
    split
    · rename_i heq
      have : ¬ b = k := by omega
      simp [sparseGet, this]
    · simp only [sparseGet, sparseGet_erase_of_ne dflt a b hne rest]

/-- In any list, writing leaves the value read at every other place. -/
theorem sparseGet_set_of_ne (dflt : α) (m : List (Nat × α)) (a b : Nat) (v : α) (hne : b ≠ a) :
    sparseGet dflt (sparseSet dflt m a v) b = sparseGet dflt m b := by
  unfold sparseSet
  split
  · exact sparseGet_erase_of_ne dflt a b hne m
  · rw [sparseGet_insert, if_neg hne]

omit [DecidableEq α] in
theorem mem_sparseErase (a : Nat) (e : Nat × α) : ∀ m : List (Nat × α), e ∈ sparseErase m a → e ∈ m
  | [], h => h
  | (k, w) :: rest, h => by
    simp only [sparseErase] at h
    split at h
    · exact List.mem_cons_of_mem _ h
    · rcases List.mem_cons.1 h with h | h
      · exact List.mem_cons.2 (.inl h)
      · exact List.mem_cons_of_mem _ (mem_sparseErase a e rest h)

omit [DecidableEq α] in
theorem mem_sparseInsert (a : Nat) (v : α) (e : Nat × α) :
    ∀ m : List (Nat × α), e ∈ sparseInsert m a v → e = (a, v) ∨ e ∈ m
  | [], h => by
    simp only [sparseInsert, List.mem_singleton] at h
    exact .inl h
  | (k, w) :: rest, h => by
    simp only [sparseInsert] at h
    split at h
    · simpa using h
    · split at h
      · rcases List.mem_cons.1 h with h | h
        · exact .inl h
        · exact .inr (List.mem_cons_of_mem _ h)
      · rcases List.mem_cons.1 h with h | h
        · exact .inr (List.mem_cons.2 (.inl h))
        · rcases mem_sparseInsert a v e rest h with h | h
          · exact .inl h
          · exact .inr (List.mem_cons_of_mem _ h)

/-- An entry of the written list is the one written or was there before. -/
theorem mem_sparseSet (dflt : α) (m : List (Nat × α)) (a : Nat) (v : α) (e : Nat × α)
    (h : e ∈ sparseSet dflt m a v) : e = (a, v) ∨ e ∈ m := by
  unfold sparseSet at h
  split at h
  · exact .inr (mem_sparseErase a e m h)
  · exact mem_sparseInsert a v e m h

/-- A write of a byte keeps the canonical form of memory. -/
theorem Memory.write_wf (m : Memory) (a : Nat) (v : Byte) (h : m.wf = true) : (m.write a v).wf = true :=
  sparseSet_wf unlistedByte m a v h

/-- Reading memory after writing one byte. -/
theorem Memory.read_write (m : Memory) (a b : Nat) (v : Byte) (h : m.wf = true) :
    (m.write a v).read b = if b = a then v else m.read b := sparseGet_set unlistedByte m a b v h

/-- Writing one byte leaves every other byte alone. -/
theorem Memory.read_write_of_ne (m : Memory) (a b : Nat) (v : Byte) (hne : b ≠ a) :
    (m.write a v).read b = m.read b := sparseGet_set_of_ne unlistedByte m a b v hne

/-- Empty memory is in canonical form. -/
theorem Memory.wf_nil : Memory.wf [] = true := rfl

end Sys2Proof.Laws
end

