-- ==== Sys2Proof/Laws/State.lean ====
section
/-! SUPPORT. What each update of the state leaves alone, one lemma per field, and the register file's read after write. -/

namespace Sys2Proof.Laws

open Sys2Proof.Machine

@[simp] theorem setReg_pc (s : State) (r : Reg) (v : Word) : (s.setReg r v).pc = s.pc := rfl
@[simp] theorem setReg_ps (s : State) (r : Reg) (v : Word) : (s.setReg r v).ps = s.ps := rfl
@[simp] theorem setReg_su (s : State) (r : Reg) (v : Word) : (s.setReg r v).su = s.su := rfl
@[simp] theorem setReg_ss (s : State) (r : Reg) (v : Word) : (s.setReg r v).ss = s.ss := rfl
@[simp] theorem setReg_vb (s : State) (r : Reg) (v : Word) : (s.setReg r v).vb = s.vb := rfl
@[simp] theorem setReg_im (s : State) (r : Reg) (v : Word) : (s.setReg r v).im = s.im := rfl
@[simp] theorem setReg_ic (s : State) (r : Reg) (v : Word) : (s.setReg r v).ic = s.ic := rfl
@[simp] theorem setReg_fa (s : State) (r : Reg) (v : Word) : (s.setReg r v).fa = s.fa := rfl
@[simp] theorem setReg_tu (s : State) (r : Reg) (v : Word) : (s.setReg r v).tu = s.tu := rfl
@[simp] theorem setReg_ts (s : State) (r : Reg) (v : Word) : (s.setReg r v).ts = s.ts := rfl
@[simp] theorem setReg_cl (s : State) (r : Reg) (v : Word) : (s.setReg r v).cl = s.cl := rfl
@[simp] theorem setReg_cc (s : State) (r : Reg) (v : Word) : (s.setReg r v).cc = s.cc := rfl
@[simp] theorem setReg_asleep (s : State) (r : Reg) (v : Word) : (s.setReg r v).asleep = s.asleep := rfl
@[simp] theorem setReg_resetPending (s : State) (r : Reg) (v : Word) : (s.setReg r v).resetPending = s.resetPending := rfl
@[simp] theorem setReg_debugLatch (s : State) (r : Reg) (v : Word) : (s.setReg r v).debugLatch = s.debugLatch := rfl
@[simp] theorem setReg_resetLine (s : State) (r : Reg) (v : Word) : (s.setReg r v).resetLine = s.resetLine := rfl
@[simp] theorem setReg_debugLine (s : State) (r : Reg) (v : Word) : (s.setReg r v).debugLine = s.debugLine := rfl
@[simp] theorem setReg_ram (s : State) (r : Reg) (v : Word) : (s.setReg r v).ram = s.ram := rfl
@[simp] theorem setReg_rom (s : State) (r : Reg) (v : Word) : (s.setReg r v).rom = s.rom := rfl
@[simp] theorem setReg_sbc (s : State) (r : Reg) (v : Word) : (s.setReg r v).sbc = s.sbc := rfl
@[simp] theorem setReg_platform (s : State) (r : Reg) (v : Word) : (s.setReg r v).platform = s.platform := rfl
@[simp] theorem setReg_inputs (s : State) (r : Reg) (v : Word) : (s.setReg r v).inputs = s.inputs := rfl
@[simp] theorem setReg_draws (s : State) (r : Reg) (v : Word) : (s.setReg r v).draws = s.draws := rfl

@[simp] theorem setPair_pc (s : State) (p : Pair) (v : DWord) : (s.setPair p v).pc = s.pc := rfl
@[simp] theorem setPair_ps (s : State) (p : Pair) (v : DWord) : (s.setPair p v).ps = s.ps := rfl
@[simp] theorem setPair_su (s : State) (p : Pair) (v : DWord) : (s.setPair p v).su = s.su := rfl
@[simp] theorem setPair_ss (s : State) (p : Pair) (v : DWord) : (s.setPair p v).ss = s.ss := rfl
@[simp] theorem setPair_vb (s : State) (p : Pair) (v : DWord) : (s.setPair p v).vb = s.vb := rfl
@[simp] theorem setPair_im (s : State) (p : Pair) (v : DWord) : (s.setPair p v).im = s.im := rfl
@[simp] theorem setPair_ic (s : State) (p : Pair) (v : DWord) : (s.setPair p v).ic = s.ic := rfl
@[simp] theorem setPair_fa (s : State) (p : Pair) (v : DWord) : (s.setPair p v).fa = s.fa := rfl
@[simp] theorem setPair_tu (s : State) (p : Pair) (v : DWord) : (s.setPair p v).tu = s.tu := rfl
@[simp] theorem setPair_ts (s : State) (p : Pair) (v : DWord) : (s.setPair p v).ts = s.ts := rfl
@[simp] theorem setPair_cl (s : State) (p : Pair) (v : DWord) : (s.setPair p v).cl = s.cl := rfl
@[simp] theorem setPair_cc (s : State) (p : Pair) (v : DWord) : (s.setPair p v).cc = s.cc := rfl
@[simp] theorem setPair_asleep (s : State) (p : Pair) (v : DWord) : (s.setPair p v).asleep = s.asleep := rfl
@[simp] theorem setPair_resetPending (s : State) (p : Pair) (v : DWord) : (s.setPair p v).resetPending = s.resetPending := rfl
@[simp] theorem setPair_debugLatch (s : State) (p : Pair) (v : DWord) : (s.setPair p v).debugLatch = s.debugLatch := rfl
@[simp] theorem setPair_resetLine (s : State) (p : Pair) (v : DWord) : (s.setPair p v).resetLine = s.resetLine := rfl
@[simp] theorem setPair_debugLine (s : State) (p : Pair) (v : DWord) : (s.setPair p v).debugLine = s.debugLine := rfl
@[simp] theorem setPair_ram (s : State) (p : Pair) (v : DWord) : (s.setPair p v).ram = s.ram := rfl
@[simp] theorem setPair_rom (s : State) (p : Pair) (v : DWord) : (s.setPair p v).rom = s.rom := rfl
@[simp] theorem setPair_sbc (s : State) (p : Pair) (v : DWord) : (s.setPair p v).sbc = s.sbc := rfl
@[simp] theorem setPair_platform (s : State) (p : Pair) (v : DWord) : (s.setPair p v).platform = s.platform := rfl
@[simp] theorem setPair_inputs (s : State) (p : Pair) (v : DWord) : (s.setPair p v).inputs = s.inputs := rfl
@[simp] theorem setPair_draws (s : State) (p : Pair) (v : DWord) : (s.setPair p v).draws = s.draws := rfl

@[simp] theorem setNZ_regs (s : State) (r : Word) : (s.setNZ r).regs = s.regs := rfl
@[simp] theorem setNZ_pc (s : State) (r : Word) : (s.setNZ r).pc = s.pc := rfl
@[simp] theorem setNZ_su (s : State) (r : Word) : (s.setNZ r).su = s.su := rfl
@[simp] theorem setNZ_ss (s : State) (r : Word) : (s.setNZ r).ss = s.ss := rfl
@[simp] theorem setNZ_vb (s : State) (r : Word) : (s.setNZ r).vb = s.vb := rfl
@[simp] theorem setNZ_im (s : State) (r : Word) : (s.setNZ r).im = s.im := rfl
@[simp] theorem setNZ_ic (s : State) (r : Word) : (s.setNZ r).ic = s.ic := rfl
@[simp] theorem setNZ_fa (s : State) (r : Word) : (s.setNZ r).fa = s.fa := rfl
@[simp] theorem setNZ_tu (s : State) (r : Word) : (s.setNZ r).tu = s.tu := rfl
@[simp] theorem setNZ_ts (s : State) (r : Word) : (s.setNZ r).ts = s.ts := rfl
@[simp] theorem setNZ_cl (s : State) (r : Word) : (s.setNZ r).cl = s.cl := rfl
@[simp] theorem setNZ_cc (s : State) (r : Word) : (s.setNZ r).cc = s.cc := rfl
@[simp] theorem setNZ_asleep (s : State) (r : Word) : (s.setNZ r).asleep = s.asleep := rfl
@[simp] theorem setNZ_resetPending (s : State) (r : Word) : (s.setNZ r).resetPending = s.resetPending := rfl
@[simp] theorem setNZ_debugLatch (s : State) (r : Word) : (s.setNZ r).debugLatch = s.debugLatch := rfl
@[simp] theorem setNZ_resetLine (s : State) (r : Word) : (s.setNZ r).resetLine = s.resetLine := rfl
@[simp] theorem setNZ_debugLine (s : State) (r : Word) : (s.setNZ r).debugLine = s.debugLine := rfl
@[simp] theorem setNZ_ram (s : State) (r : Word) : (s.setNZ r).ram = s.ram := rfl
@[simp] theorem setNZ_rom (s : State) (r : Word) : (s.setNZ r).rom = s.rom := rfl
@[simp] theorem setNZ_sbc (s : State) (r : Word) : (s.setNZ r).sbc = s.sbc := rfl
@[simp] theorem setNZ_platform (s : State) (r : Word) : (s.setNZ r).platform = s.platform := rfl
@[simp] theorem setNZ_inputs (s : State) (r : Word) : (s.setNZ r).inputs = s.inputs := rfl
@[simp] theorem setNZ_draws (s : State) (r : Word) : (s.setNZ r).draws = s.draws := rfl

@[simp] theorem setC_regs (s : State) (b : Bool) : (s.setC b).regs = s.regs := rfl
@[simp] theorem setC_pc (s : State) (b : Bool) : (s.setC b).pc = s.pc := rfl
@[simp] theorem setC_su (s : State) (b : Bool) : (s.setC b).su = s.su := rfl
@[simp] theorem setC_ss (s : State) (b : Bool) : (s.setC b).ss = s.ss := rfl
@[simp] theorem setC_vb (s : State) (b : Bool) : (s.setC b).vb = s.vb := rfl
@[simp] theorem setC_im (s : State) (b : Bool) : (s.setC b).im = s.im := rfl
@[simp] theorem setC_ic (s : State) (b : Bool) : (s.setC b).ic = s.ic := rfl
@[simp] theorem setC_fa (s : State) (b : Bool) : (s.setC b).fa = s.fa := rfl
@[simp] theorem setC_tu (s : State) (b : Bool) : (s.setC b).tu = s.tu := rfl
@[simp] theorem setC_ts (s : State) (b : Bool) : (s.setC b).ts = s.ts := rfl
@[simp] theorem setC_cl (s : State) (b : Bool) : (s.setC b).cl = s.cl := rfl
@[simp] theorem setC_cc (s : State) (b : Bool) : (s.setC b).cc = s.cc := rfl
@[simp] theorem setC_asleep (s : State) (b : Bool) : (s.setC b).asleep = s.asleep := rfl
@[simp] theorem setC_resetPending (s : State) (b : Bool) : (s.setC b).resetPending = s.resetPending := rfl
@[simp] theorem setC_debugLatch (s : State) (b : Bool) : (s.setC b).debugLatch = s.debugLatch := rfl
@[simp] theorem setC_resetLine (s : State) (b : Bool) : (s.setC b).resetLine = s.resetLine := rfl
@[simp] theorem setC_debugLine (s : State) (b : Bool) : (s.setC b).debugLine = s.debugLine := rfl
@[simp] theorem setC_ram (s : State) (b : Bool) : (s.setC b).ram = s.ram := rfl
@[simp] theorem setC_rom (s : State) (b : Bool) : (s.setC b).rom = s.rom := rfl
@[simp] theorem setC_sbc (s : State) (b : Bool) : (s.setC b).sbc = s.sbc := rfl
@[simp] theorem setC_platform (s : State) (b : Bool) : (s.setC b).platform = s.platform := rfl
@[simp] theorem setC_inputs (s : State) (b : Bool) : (s.setC b).inputs = s.inputs := rfl
@[simp] theorem setC_draws (s : State) (b : Bool) : (s.setC b).draws = s.draws := rfl

@[simp] theorem setV_regs (s : State) (b : Bool) : (s.setV b).regs = s.regs := rfl
@[simp] theorem setV_pc (s : State) (b : Bool) : (s.setV b).pc = s.pc := rfl
@[simp] theorem setV_su (s : State) (b : Bool) : (s.setV b).su = s.su := rfl
@[simp] theorem setV_ss (s : State) (b : Bool) : (s.setV b).ss = s.ss := rfl
@[simp] theorem setV_vb (s : State) (b : Bool) : (s.setV b).vb = s.vb := rfl
@[simp] theorem setV_im (s : State) (b : Bool) : (s.setV b).im = s.im := rfl
@[simp] theorem setV_ic (s : State) (b : Bool) : (s.setV b).ic = s.ic := rfl
@[simp] theorem setV_fa (s : State) (b : Bool) : (s.setV b).fa = s.fa := rfl
@[simp] theorem setV_tu (s : State) (b : Bool) : (s.setV b).tu = s.tu := rfl
@[simp] theorem setV_ts (s : State) (b : Bool) : (s.setV b).ts = s.ts := rfl
@[simp] theorem setV_cl (s : State) (b : Bool) : (s.setV b).cl = s.cl := rfl
@[simp] theorem setV_cc (s : State) (b : Bool) : (s.setV b).cc = s.cc := rfl
@[simp] theorem setV_asleep (s : State) (b : Bool) : (s.setV b).asleep = s.asleep := rfl
@[simp] theorem setV_resetPending (s : State) (b : Bool) : (s.setV b).resetPending = s.resetPending := rfl
@[simp] theorem setV_debugLatch (s : State) (b : Bool) : (s.setV b).debugLatch = s.debugLatch := rfl
@[simp] theorem setV_resetLine (s : State) (b : Bool) : (s.setV b).resetLine = s.resetLine := rfl
@[simp] theorem setV_debugLine (s : State) (b : Bool) : (s.setV b).debugLine = s.debugLine := rfl
@[simp] theorem setV_ram (s : State) (b : Bool) : (s.setV b).ram = s.ram := rfl
@[simp] theorem setV_rom (s : State) (b : Bool) : (s.setV b).rom = s.rom := rfl
@[simp] theorem setV_sbc (s : State) (b : Bool) : (s.setV b).sbc = s.sbc := rfl
@[simp] theorem setV_platform (s : State) (b : Bool) : (s.setV b).platform = s.platform := rfl
@[simp] theorem setV_inputs (s : State) (b : Bool) : (s.setV b).inputs = s.inputs := rfl
@[simp] theorem setV_draws (s : State) (b : Bool) : (s.setV b).draws = s.draws := rfl

@[simp] theorem setZ_regs (s : State) (b : Bool) : (s.setZ b).regs = s.regs := rfl
@[simp] theorem setZ_pc (s : State) (b : Bool) : (s.setZ b).pc = s.pc := rfl
@[simp] theorem setZ_su (s : State) (b : Bool) : (s.setZ b).su = s.su := rfl
@[simp] theorem setZ_ss (s : State) (b : Bool) : (s.setZ b).ss = s.ss := rfl
@[simp] theorem setZ_vb (s : State) (b : Bool) : (s.setZ b).vb = s.vb := rfl
@[simp] theorem setZ_im (s : State) (b : Bool) : (s.setZ b).im = s.im := rfl
@[simp] theorem setZ_ic (s : State) (b : Bool) : (s.setZ b).ic = s.ic := rfl
@[simp] theorem setZ_fa (s : State) (b : Bool) : (s.setZ b).fa = s.fa := rfl
@[simp] theorem setZ_tu (s : State) (b : Bool) : (s.setZ b).tu = s.tu := rfl
@[simp] theorem setZ_ts (s : State) (b : Bool) : (s.setZ b).ts = s.ts := rfl
@[simp] theorem setZ_cl (s : State) (b : Bool) : (s.setZ b).cl = s.cl := rfl
@[simp] theorem setZ_cc (s : State) (b : Bool) : (s.setZ b).cc = s.cc := rfl
@[simp] theorem setZ_asleep (s : State) (b : Bool) : (s.setZ b).asleep = s.asleep := rfl
@[simp] theorem setZ_resetPending (s : State) (b : Bool) : (s.setZ b).resetPending = s.resetPending := rfl
@[simp] theorem setZ_debugLatch (s : State) (b : Bool) : (s.setZ b).debugLatch = s.debugLatch := rfl
@[simp] theorem setZ_resetLine (s : State) (b : Bool) : (s.setZ b).resetLine = s.resetLine := rfl
@[simp] theorem setZ_debugLine (s : State) (b : Bool) : (s.setZ b).debugLine = s.debugLine := rfl
@[simp] theorem setZ_ram (s : State) (b : Bool) : (s.setZ b).ram = s.ram := rfl
@[simp] theorem setZ_rom (s : State) (b : Bool) : (s.setZ b).rom = s.rom := rfl
@[simp] theorem setZ_sbc (s : State) (b : Bool) : (s.setZ b).sbc = s.sbc := rfl
@[simp] theorem setZ_platform (s : State) (b : Bool) : (s.setZ b).platform = s.platform := rfl
@[simp] theorem setZ_inputs (s : State) (b : Bool) : (s.setZ b).inputs = s.inputs := rfl
@[simp] theorem setZ_draws (s : State) (b : Bool) : (s.setZ b).draws = s.draws := rfl

@[simp] theorem setN_regs (s : State) (b : Bool) : (s.setN b).regs = s.regs := rfl
@[simp] theorem setN_pc (s : State) (b : Bool) : (s.setN b).pc = s.pc := rfl
@[simp] theorem setN_su (s : State) (b : Bool) : (s.setN b).su = s.su := rfl
@[simp] theorem setN_ss (s : State) (b : Bool) : (s.setN b).ss = s.ss := rfl
@[simp] theorem setN_vb (s : State) (b : Bool) : (s.setN b).vb = s.vb := rfl
@[simp] theorem setN_im (s : State) (b : Bool) : (s.setN b).im = s.im := rfl
@[simp] theorem setN_ic (s : State) (b : Bool) : (s.setN b).ic = s.ic := rfl
@[simp] theorem setN_fa (s : State) (b : Bool) : (s.setN b).fa = s.fa := rfl
@[simp] theorem setN_tu (s : State) (b : Bool) : (s.setN b).tu = s.tu := rfl
@[simp] theorem setN_ts (s : State) (b : Bool) : (s.setN b).ts = s.ts := rfl
@[simp] theorem setN_cl (s : State) (b : Bool) : (s.setN b).cl = s.cl := rfl
@[simp] theorem setN_cc (s : State) (b : Bool) : (s.setN b).cc = s.cc := rfl
@[simp] theorem setN_asleep (s : State) (b : Bool) : (s.setN b).asleep = s.asleep := rfl
@[simp] theorem setN_resetPending (s : State) (b : Bool) : (s.setN b).resetPending = s.resetPending := rfl
@[simp] theorem setN_debugLatch (s : State) (b : Bool) : (s.setN b).debugLatch = s.debugLatch := rfl
@[simp] theorem setN_resetLine (s : State) (b : Bool) : (s.setN b).resetLine = s.resetLine := rfl
@[simp] theorem setN_debugLine (s : State) (b : Bool) : (s.setN b).debugLine = s.debugLine := rfl
@[simp] theorem setN_ram (s : State) (b : Bool) : (s.setN b).ram = s.ram := rfl
@[simp] theorem setN_rom (s : State) (b : Bool) : (s.setN b).rom = s.rom := rfl
@[simp] theorem setN_sbc (s : State) (b : Bool) : (s.setN b).sbc = s.sbc := rfl
@[simp] theorem setN_platform (s : State) (b : Bool) : (s.setN b).platform = s.platform := rfl
@[simp] theorem setN_inputs (s : State) (b : Bool) : (s.setN b).inputs = s.inputs := rfl
@[simp] theorem setN_draws (s : State) (b : Bool) : (s.setN b).draws = s.draws := rfl

@[simp] theorem setFlags_regs (s : State) (r : AluResult) : (s.setFlags r).regs = s.regs := rfl
@[simp] theorem setFlags_pc (s : State) (r : AluResult) : (s.setFlags r).pc = s.pc := rfl
@[simp] theorem setFlags_su (s : State) (r : AluResult) : (s.setFlags r).su = s.su := rfl
@[simp] theorem setFlags_ss (s : State) (r : AluResult) : (s.setFlags r).ss = s.ss := rfl
@[simp] theorem setFlags_vb (s : State) (r : AluResult) : (s.setFlags r).vb = s.vb := rfl
@[simp] theorem setFlags_im (s : State) (r : AluResult) : (s.setFlags r).im = s.im := rfl
@[simp] theorem setFlags_ic (s : State) (r : AluResult) : (s.setFlags r).ic = s.ic := rfl
@[simp] theorem setFlags_fa (s : State) (r : AluResult) : (s.setFlags r).fa = s.fa := rfl
@[simp] theorem setFlags_tu (s : State) (r : AluResult) : (s.setFlags r).tu = s.tu := rfl
@[simp] theorem setFlags_ts (s : State) (r : AluResult) : (s.setFlags r).ts = s.ts := rfl
@[simp] theorem setFlags_cl (s : State) (r : AluResult) : (s.setFlags r).cl = s.cl := rfl
@[simp] theorem setFlags_cc (s : State) (r : AluResult) : (s.setFlags r).cc = s.cc := rfl
@[simp] theorem setFlags_asleep (s : State) (r : AluResult) : (s.setFlags r).asleep = s.asleep := rfl
@[simp] theorem setFlags_resetPending (s : State) (r : AluResult) : (s.setFlags r).resetPending = s.resetPending := rfl
@[simp] theorem setFlags_debugLatch (s : State) (r : AluResult) : (s.setFlags r).debugLatch = s.debugLatch := rfl
@[simp] theorem setFlags_resetLine (s : State) (r : AluResult) : (s.setFlags r).resetLine = s.resetLine := rfl
@[simp] theorem setFlags_debugLine (s : State) (r : AluResult) : (s.setFlags r).debugLine = s.debugLine := rfl
@[simp] theorem setFlags_ram (s : State) (r : AluResult) : (s.setFlags r).ram = s.ram := rfl
@[simp] theorem setFlags_rom (s : State) (r : AluResult) : (s.setFlags r).rom = s.rom := rfl
@[simp] theorem setFlags_sbc (s : State) (r : AluResult) : (s.setFlags r).sbc = s.sbc := rfl
@[simp] theorem setFlags_platform (s : State) (r : AluResult) : (s.setFlags r).platform = s.platform := rfl
@[simp] theorem setFlags_inputs (s : State) (r : AluResult) : (s.setFlags r).inputs = s.inputs := rfl
@[simp] theorem setFlags_draws (s : State) (r : AluResult) : (s.setFlags r).draws = s.draws := rfl

@[simp] theorem setBitFlags_regs (s : State) (old c : Bool) : (s.setBitFlags old c).regs = s.regs := rfl
@[simp] theorem setBitFlags_pc (s : State) (old c : Bool) : (s.setBitFlags old c).pc = s.pc := rfl
@[simp] theorem setBitFlags_su (s : State) (old c : Bool) : (s.setBitFlags old c).su = s.su := rfl
@[simp] theorem setBitFlags_ss (s : State) (old c : Bool) : (s.setBitFlags old c).ss = s.ss := rfl
@[simp] theorem setBitFlags_vb (s : State) (old c : Bool) : (s.setBitFlags old c).vb = s.vb := rfl
@[simp] theorem setBitFlags_im (s : State) (old c : Bool) : (s.setBitFlags old c).im = s.im := rfl
@[simp] theorem setBitFlags_ic (s : State) (old c : Bool) : (s.setBitFlags old c).ic = s.ic := rfl
@[simp] theorem setBitFlags_fa (s : State) (old c : Bool) : (s.setBitFlags old c).fa = s.fa := rfl
@[simp] theorem setBitFlags_tu (s : State) (old c : Bool) : (s.setBitFlags old c).tu = s.tu := rfl
@[simp] theorem setBitFlags_ts (s : State) (old c : Bool) : (s.setBitFlags old c).ts = s.ts := rfl
@[simp] theorem setBitFlags_cl (s : State) (old c : Bool) : (s.setBitFlags old c).cl = s.cl := rfl
@[simp] theorem setBitFlags_cc (s : State) (old c : Bool) : (s.setBitFlags old c).cc = s.cc := rfl
@[simp] theorem setBitFlags_asleep (s : State) (old c : Bool) : (s.setBitFlags old c).asleep = s.asleep := rfl
@[simp] theorem setBitFlags_resetPending (s : State) (old c : Bool) : (s.setBitFlags old c).resetPending = s.resetPending := rfl
@[simp] theorem setBitFlags_debugLatch (s : State) (old c : Bool) : (s.setBitFlags old c).debugLatch = s.debugLatch := rfl
@[simp] theorem setBitFlags_resetLine (s : State) (old c : Bool) : (s.setBitFlags old c).resetLine = s.resetLine := rfl
@[simp] theorem setBitFlags_debugLine (s : State) (old c : Bool) : (s.setBitFlags old c).debugLine = s.debugLine := rfl
@[simp] theorem setBitFlags_ram (s : State) (old c : Bool) : (s.setBitFlags old c).ram = s.ram := rfl
@[simp] theorem setBitFlags_rom (s : State) (old c : Bool) : (s.setBitFlags old c).rom = s.rom := rfl
@[simp] theorem setBitFlags_sbc (s : State) (old c : Bool) : (s.setBitFlags old c).sbc = s.sbc := rfl
@[simp] theorem setBitFlags_platform (s : State) (old c : Bool) : (s.setBitFlags old c).platform = s.platform := rfl
@[simp] theorem setBitFlags_inputs (s : State) (old c : Bool) : (s.setBitFlags old c).inputs = s.inputs := rfl
@[simp] theorem setBitFlags_draws (s : State) (old c : Bool) : (s.setBitFlags old c).draws = s.draws := rfl

@[simp] theorem tick_regs (s : State) (n : Nat) : (s.tick n).regs = s.regs := rfl
@[simp] theorem tick_pc (s : State) (n : Nat) : (s.tick n).pc = s.pc := rfl
@[simp] theorem tick_ps (s : State) (n : Nat) : (s.tick n).ps = s.ps := rfl
@[simp] theorem tick_su (s : State) (n : Nat) : (s.tick n).su = s.su := rfl
@[simp] theorem tick_ss (s : State) (n : Nat) : (s.tick n).ss = s.ss := rfl
@[simp] theorem tick_vb (s : State) (n : Nat) : (s.tick n).vb = s.vb := rfl
@[simp] theorem tick_im (s : State) (n : Nat) : (s.tick n).im = s.im := rfl
@[simp] theorem tick_ic (s : State) (n : Nat) : (s.tick n).ic = s.ic := rfl
@[simp] theorem tick_fa (s : State) (n : Nat) : (s.tick n).fa = s.fa := rfl
@[simp] theorem tick_tu (s : State) (n : Nat) : (s.tick n).tu = s.tu := rfl
@[simp] theorem tick_ts (s : State) (n : Nat) : (s.tick n).ts = s.ts := rfl
@[simp] theorem tick_cc (s : State) (n : Nat) : (s.tick n).cc = s.cc := rfl
@[simp] theorem tick_asleep (s : State) (n : Nat) : (s.tick n).asleep = s.asleep := rfl
@[simp] theorem tick_resetPending (s : State) (n : Nat) : (s.tick n).resetPending = s.resetPending := rfl
@[simp] theorem tick_debugLatch (s : State) (n : Nat) : (s.tick n).debugLatch = s.debugLatch := rfl
@[simp] theorem tick_resetLine (s : State) (n : Nat) : (s.tick n).resetLine = s.resetLine := rfl
@[simp] theorem tick_debugLine (s : State) (n : Nat) : (s.tick n).debugLine = s.debugLine := rfl
@[simp] theorem tick_ram (s : State) (n : Nat) : (s.tick n).ram = s.ram := rfl
@[simp] theorem tick_rom (s : State) (n : Nat) : (s.tick n).rom = s.rom := rfl
@[simp] theorem tick_sbc (s : State) (n : Nat) : (s.tick n).sbc = s.sbc := rfl
@[simp] theorem tick_platform (s : State) (n : Nat) : (s.tick n).platform = s.platform := rfl
@[simp] theorem tick_inputs (s : State) (n : Nat) : (s.tick n).inputs = s.inputs := rfl
@[simp] theorem tick_draws (s : State) (n : Nat) : (s.tick n).draws = s.draws := rfl

@[simp] theorem idleTick_regs (s : State) : (s.idleTick).regs = s.regs := rfl
@[simp] theorem idleTick_pc (s : State) : (s.idleTick).pc = s.pc := rfl
@[simp] theorem idleTick_ps (s : State) : (s.idleTick).ps = s.ps := rfl
@[simp] theorem idleTick_su (s : State) : (s.idleTick).su = s.su := rfl
@[simp] theorem idleTick_ss (s : State) : (s.idleTick).ss = s.ss := rfl
@[simp] theorem idleTick_vb (s : State) : (s.idleTick).vb = s.vb := rfl
@[simp] theorem idleTick_im (s : State) : (s.idleTick).im = s.im := rfl
@[simp] theorem idleTick_ic (s : State) : (s.idleTick).ic = s.ic := rfl
@[simp] theorem idleTick_fa (s : State) : (s.idleTick).fa = s.fa := rfl
@[simp] theorem idleTick_tu (s : State) : (s.idleTick).tu = s.tu := rfl
@[simp] theorem idleTick_ts (s : State) : (s.idleTick).ts = s.ts := rfl
@[simp] theorem idleTick_cc (s : State) : (s.idleTick).cc = s.cc := rfl
@[simp] theorem idleTick_asleep (s : State) : (s.idleTick).asleep = s.asleep := rfl
@[simp] theorem idleTick_resetPending (s : State) : (s.idleTick).resetPending = s.resetPending := rfl
@[simp] theorem idleTick_debugLatch (s : State) : (s.idleTick).debugLatch = s.debugLatch := rfl
@[simp] theorem idleTick_resetLine (s : State) : (s.idleTick).resetLine = s.resetLine := rfl
@[simp] theorem idleTick_debugLine (s : State) : (s.idleTick).debugLine = s.debugLine := rfl
@[simp] theorem idleTick_ram (s : State) : (s.idleTick).ram = s.ram := rfl
@[simp] theorem idleTick_rom (s : State) : (s.idleTick).rom = s.rom := rfl
@[simp] theorem idleTick_sbc (s : State) : (s.idleTick).sbc = s.sbc := rfl
@[simp] theorem idleTick_platform (s : State) : (s.idleTick).platform = s.platform := rfl
@[simp] theorem idleTick_inputs (s : State) : (s.idleTick).inputs = s.inputs := rfl

@[simp] theorem advance_regs (s : State) : (s.advance).regs = s.regs := rfl
@[simp] theorem advance_ps (s : State) : (s.advance).ps = s.ps := rfl
@[simp] theorem advance_su (s : State) : (s.advance).su = s.su := rfl
@[simp] theorem advance_ss (s : State) : (s.advance).ss = s.ss := rfl
@[simp] theorem advance_vb (s : State) : (s.advance).vb = s.vb := rfl
@[simp] theorem advance_im (s : State) : (s.advance).im = s.im := rfl
@[simp] theorem advance_ic (s : State) : (s.advance).ic = s.ic := rfl
@[simp] theorem advance_fa (s : State) : (s.advance).fa = s.fa := rfl
@[simp] theorem advance_tu (s : State) : (s.advance).tu = s.tu := rfl
@[simp] theorem advance_ts (s : State) : (s.advance).ts = s.ts := rfl
@[simp] theorem advance_cl (s : State) : (s.advance).cl = s.cl := rfl
@[simp] theorem advance_cc (s : State) : (s.advance).cc = s.cc := rfl
@[simp] theorem advance_asleep (s : State) : (s.advance).asleep = s.asleep := rfl
@[simp] theorem advance_resetPending (s : State) : (s.advance).resetPending = s.resetPending := rfl
@[simp] theorem advance_debugLatch (s : State) : (s.advance).debugLatch = s.debugLatch := rfl
@[simp] theorem advance_resetLine (s : State) : (s.advance).resetLine = s.resetLine := rfl
@[simp] theorem advance_debugLine (s : State) : (s.advance).debugLine = s.debugLine := rfl
@[simp] theorem advance_ram (s : State) : (s.advance).ram = s.ram := rfl
@[simp] theorem advance_rom (s : State) : (s.advance).rom = s.rom := rfl
@[simp] theorem advance_sbc (s : State) : (s.advance).sbc = s.sbc := rfl
@[simp] theorem advance_platform (s : State) : (s.advance).platform = s.platform := rfl
@[simp] theorem advance_inputs (s : State) : (s.advance).inputs = s.inputs := rfl
@[simp] theorem advance_draws (s : State) : (s.advance).draws = s.draws := rfl

@[simp] theorem tripleFault_regs (s : State) : (s.tripleFault).regs = s.regs := rfl
@[simp] theorem tripleFault_pc (s : State) : (s.tripleFault).pc = s.pc := rfl
@[simp] theorem tripleFault_ps (s : State) : (s.tripleFault).ps = s.ps := rfl
@[simp] theorem tripleFault_su (s : State) : (s.tripleFault).su = s.su := rfl
@[simp] theorem tripleFault_ss (s : State) : (s.tripleFault).ss = s.ss := rfl
@[simp] theorem tripleFault_vb (s : State) : (s.tripleFault).vb = s.vb := rfl
@[simp] theorem tripleFault_im (s : State) : (s.tripleFault).im = s.im := rfl
@[simp] theorem tripleFault_ic (s : State) : (s.tripleFault).ic = s.ic := rfl
@[simp] theorem tripleFault_fa (s : State) : (s.tripleFault).fa = s.fa := rfl
@[simp] theorem tripleFault_tu (s : State) : (s.tripleFault).tu = s.tu := rfl
@[simp] theorem tripleFault_ts (s : State) : (s.tripleFault).ts = s.ts := rfl
@[simp] theorem tripleFault_cl (s : State) : (s.tripleFault).cl = s.cl := rfl
@[simp] theorem tripleFault_cc (s : State) : (s.tripleFault).cc = s.cc := rfl
@[simp] theorem tripleFault_asleep (s : State) : (s.tripleFault).asleep = s.asleep := rfl
@[simp] theorem tripleFault_debugLatch (s : State) : (s.tripleFault).debugLatch = s.debugLatch := rfl
@[simp] theorem tripleFault_resetLine (s : State) : (s.tripleFault).resetLine = s.resetLine := rfl
@[simp] theorem tripleFault_debugLine (s : State) : (s.tripleFault).debugLine = s.debugLine := rfl
@[simp] theorem tripleFault_ram (s : State) : (s.tripleFault).ram = s.ram := rfl
@[simp] theorem tripleFault_rom (s : State) : (s.tripleFault).rom = s.rom := rfl
@[simp] theorem tripleFault_sbc (s : State) : (s.tripleFault).sbc = s.sbc := rfl
@[simp] theorem tripleFault_platform (s : State) : (s.tripleFault).platform = s.platform := rfl
@[simp] theorem tripleFault_inputs (s : State) : (s.tripleFault).inputs = s.inputs := rfl
@[simp] theorem tripleFault_draws (s : State) : (s.tripleFault).draws = s.draws := rfl

@[simp] theorem drawWord_regs (s : State) : (s.drawWord.2).regs = s.regs := rfl
@[simp] theorem drawWord_pc (s : State) : (s.drawWord.2).pc = s.pc := rfl
@[simp] theorem drawWord_ps (s : State) : (s.drawWord.2).ps = s.ps := rfl
@[simp] theorem drawWord_su (s : State) : (s.drawWord.2).su = s.su := rfl
@[simp] theorem drawWord_ss (s : State) : (s.drawWord.2).ss = s.ss := rfl
@[simp] theorem drawWord_vb (s : State) : (s.drawWord.2).vb = s.vb := rfl
@[simp] theorem drawWord_im (s : State) : (s.drawWord.2).im = s.im := rfl
@[simp] theorem drawWord_ic (s : State) : (s.drawWord.2).ic = s.ic := rfl
@[simp] theorem drawWord_fa (s : State) : (s.drawWord.2).fa = s.fa := rfl
@[simp] theorem drawWord_tu (s : State) : (s.drawWord.2).tu = s.tu := rfl
@[simp] theorem drawWord_ts (s : State) : (s.drawWord.2).ts = s.ts := rfl
@[simp] theorem drawWord_cl (s : State) : (s.drawWord.2).cl = s.cl := rfl
@[simp] theorem drawWord_cc (s : State) : (s.drawWord.2).cc = s.cc := rfl
@[simp] theorem drawWord_asleep (s : State) : (s.drawWord.2).asleep = s.asleep := rfl
@[simp] theorem drawWord_resetPending (s : State) : (s.drawWord.2).resetPending = s.resetPending := rfl
@[simp] theorem drawWord_debugLatch (s : State) : (s.drawWord.2).debugLatch = s.debugLatch := rfl
@[simp] theorem drawWord_resetLine (s : State) : (s.drawWord.2).resetLine = s.resetLine := rfl
@[simp] theorem drawWord_debugLine (s : State) : (s.drawWord.2).debugLine = s.debugLine := rfl
@[simp] theorem drawWord_ram (s : State) : (s.drawWord.2).ram = s.ram := rfl
@[simp] theorem drawWord_rom (s : State) : (s.drawWord.2).rom = s.rom := rfl
@[simp] theorem drawWord_sbc (s : State) : (s.drawWord.2).sbc = s.sbc := rfl
@[simp] theorem drawWord_platform (s : State) : (s.drawWord.2).platform = s.platform := rfl
@[simp] theorem drawWord_inputs (s : State) : (s.drawWord.2).inputs = s.inputs := rfl

@[simp] theorem beginEntry_regs (s : State) (i : Interrupt) (a : Option Word) : (s.beginEntry i a).regs = s.regs := rfl
@[simp] theorem beginEntry_pc (s : State) (i : Interrupt) (a : Option Word) : (s.beginEntry i a).pc = s.pc := rfl
@[simp] theorem beginEntry_su (s : State) (i : Interrupt) (a : Option Word) : (s.beginEntry i a).su = s.su := rfl
@[simp] theorem beginEntry_ss (s : State) (i : Interrupt) (a : Option Word) : (s.beginEntry i a).ss = s.ss := rfl
@[simp] theorem beginEntry_vb (s : State) (i : Interrupt) (a : Option Word) : (s.beginEntry i a).vb = s.vb := rfl
@[simp] theorem beginEntry_ic (s : State) (i : Interrupt) (a : Option Word) : (s.beginEntry i a).ic = s.ic := rfl
@[simp] theorem beginEntry_tu (s : State) (i : Interrupt) (a : Option Word) : (s.beginEntry i a).tu = s.tu := rfl
@[simp] theorem beginEntry_ts (s : State) (i : Interrupt) (a : Option Word) : (s.beginEntry i a).ts = s.ts := rfl
@[simp] theorem beginEntry_cl (s : State) (i : Interrupt) (a : Option Word) : (s.beginEntry i a).cl = s.cl := rfl
@[simp] theorem beginEntry_cc (s : State) (i : Interrupt) (a : Option Word) : (s.beginEntry i a).cc = s.cc := rfl
@[simp] theorem beginEntry_asleep (s : State) (i : Interrupt) (a : Option Word) : (s.beginEntry i a).asleep = s.asleep := rfl
@[simp] theorem beginEntry_resetPending (s : State) (i : Interrupt) (a : Option Word) : (s.beginEntry i a).resetPending = s.resetPending := rfl
@[simp] theorem beginEntry_debugLatch (s : State) (i : Interrupt) (a : Option Word) : (s.beginEntry i a).debugLatch = s.debugLatch := rfl
@[simp] theorem beginEntry_resetLine (s : State) (i : Interrupt) (a : Option Word) : (s.beginEntry i a).resetLine = s.resetLine := rfl
@[simp] theorem beginEntry_debugLine (s : State) (i : Interrupt) (a : Option Word) : (s.beginEntry i a).debugLine = s.debugLine := rfl
@[simp] theorem beginEntry_ram (s : State) (i : Interrupt) (a : Option Word) : (s.beginEntry i a).ram = s.ram := rfl
@[simp] theorem beginEntry_rom (s : State) (i : Interrupt) (a : Option Word) : (s.beginEntry i a).rom = s.rom := rfl
@[simp] theorem beginEntry_sbc (s : State) (i : Interrupt) (a : Option Word) : (s.beginEntry i a).sbc = s.sbc := rfl
@[simp] theorem beginEntry_platform (s : State) (i : Interrupt) (a : Option Word) : (s.beginEntry i a).platform = s.platform := rfl
@[simp] theorem beginEntry_inputs (s : State) (i : Interrupt) (a : Option Word) : (s.beginEntry i a).inputs = s.inputs := rfl
@[simp] theorem beginEntry_draws (s : State) (i : Interrupt) (a : Option Word) : (s.beginEntry i a).draws = s.draws := rfl

@[simp] theorem setSp_regs (s : State) (v : Word) : (s.setSp v).regs = s.regs := by
  unfold State.setSp; split <;> rfl
@[simp] theorem setSp_pc (s : State) (v : Word) : (s.setSp v).pc = s.pc := by
  unfold State.setSp; split <;> rfl
@[simp] theorem setSp_ps (s : State) (v : Word) : (s.setSp v).ps = s.ps := by
  unfold State.setSp; split <;> rfl
@[simp] theorem setSp_vb (s : State) (v : Word) : (s.setSp v).vb = s.vb := by
  unfold State.setSp; split <;> rfl
@[simp] theorem setSp_im (s : State) (v : Word) : (s.setSp v).im = s.im := by
  unfold State.setSp; split <;> rfl
@[simp] theorem setSp_ic (s : State) (v : Word) : (s.setSp v).ic = s.ic := by
  unfold State.setSp; split <;> rfl
@[simp] theorem setSp_fa (s : State) (v : Word) : (s.setSp v).fa = s.fa := by
  unfold State.setSp; split <;> rfl
@[simp] theorem setSp_tu (s : State) (v : Word) : (s.setSp v).tu = s.tu := by
  unfold State.setSp; split <;> rfl
@[simp] theorem setSp_ts (s : State) (v : Word) : (s.setSp v).ts = s.ts := by
  unfold State.setSp; split <;> rfl
@[simp] theorem setSp_cl (s : State) (v : Word) : (s.setSp v).cl = s.cl := by
  unfold State.setSp; split <;> rfl
@[simp] theorem setSp_cc (s : State) (v : Word) : (s.setSp v).cc = s.cc := by
  unfold State.setSp; split <;> rfl
@[simp] theorem setSp_asleep (s : State) (v : Word) : (s.setSp v).asleep = s.asleep := by
  unfold State.setSp; split <;> rfl
@[simp] theorem setSp_resetPending (s : State) (v : Word) : (s.setSp v).resetPending = s.resetPending := by
  unfold State.setSp; split <;> rfl
@[simp] theorem setSp_debugLatch (s : State) (v : Word) : (s.setSp v).debugLatch = s.debugLatch := by
  unfold State.setSp; split <;> rfl
@[simp] theorem setSp_resetLine (s : State) (v : Word) : (s.setSp v).resetLine = s.resetLine := by
  unfold State.setSp; split <;> rfl
@[simp] theorem setSp_debugLine (s : State) (v : Word) : (s.setSp v).debugLine = s.debugLine := by
  unfold State.setSp; split <;> rfl
@[simp] theorem setSp_ram (s : State) (v : Word) : (s.setSp v).ram = s.ram := by
  unfold State.setSp; split <;> rfl
@[simp] theorem setSp_rom (s : State) (v : Word) : (s.setSp v).rom = s.rom := by
  unfold State.setSp; split <;> rfl
@[simp] theorem setSp_sbc (s : State) (v : Word) : (s.setSp v).sbc = s.sbc := by
  unfold State.setSp; split <;> rfl
@[simp] theorem setSp_platform (s : State) (v : Word) : (s.setSp v).platform = s.platform := by
  unfold State.setSp; split <;> rfl
@[simp] theorem setSp_inputs (s : State) (v : Word) : (s.setSp v).inputs = s.inputs := by
  unfold State.setSp; split <;> rfl
@[simp] theorem setSp_draws (s : State) (v : Word) : (s.setSp v).draws = s.draws := by
  unfold State.setSp; split <;> rfl

@[simp] theorem putNZ_pc (s : State) (d : Reg) (r : Word) : (s.putNZ d r).pc = s.pc := rfl
@[simp] theorem putNZ_su (s : State) (d : Reg) (r : Word) : (s.putNZ d r).su = s.su := rfl
@[simp] theorem putNZ_ss (s : State) (d : Reg) (r : Word) : (s.putNZ d r).ss = s.ss := rfl
@[simp] theorem putNZ_vb (s : State) (d : Reg) (r : Word) : (s.putNZ d r).vb = s.vb := rfl
@[simp] theorem putNZ_im (s : State) (d : Reg) (r : Word) : (s.putNZ d r).im = s.im := rfl
@[simp] theorem putNZ_ic (s : State) (d : Reg) (r : Word) : (s.putNZ d r).ic = s.ic := rfl
@[simp] theorem putNZ_fa (s : State) (d : Reg) (r : Word) : (s.putNZ d r).fa = s.fa := rfl
@[simp] theorem putNZ_tu (s : State) (d : Reg) (r : Word) : (s.putNZ d r).tu = s.tu := rfl
@[simp] theorem putNZ_ts (s : State) (d : Reg) (r : Word) : (s.putNZ d r).ts = s.ts := rfl
@[simp] theorem putNZ_cl (s : State) (d : Reg) (r : Word) : (s.putNZ d r).cl = s.cl := rfl
@[simp] theorem putNZ_cc (s : State) (d : Reg) (r : Word) : (s.putNZ d r).cc = s.cc := rfl
@[simp] theorem putNZ_asleep (s : State) (d : Reg) (r : Word) : (s.putNZ d r).asleep = s.asleep := rfl
@[simp] theorem putNZ_resetPending (s : State) (d : Reg) (r : Word) : (s.putNZ d r).resetPending = s.resetPending := rfl
@[simp] theorem putNZ_debugLatch (s : State) (d : Reg) (r : Word) : (s.putNZ d r).debugLatch = s.debugLatch := rfl
@[simp] theorem putNZ_resetLine (s : State) (d : Reg) (r : Word) : (s.putNZ d r).resetLine = s.resetLine := rfl
@[simp] theorem putNZ_debugLine (s : State) (d : Reg) (r : Word) : (s.putNZ d r).debugLine = s.debugLine := rfl
@[simp] theorem putNZ_ram (s : State) (d : Reg) (r : Word) : (s.putNZ d r).ram = s.ram := rfl
@[simp] theorem putNZ_rom (s : State) (d : Reg) (r : Word) : (s.putNZ d r).rom = s.rom := rfl
@[simp] theorem putNZ_sbc (s : State) (d : Reg) (r : Word) : (s.putNZ d r).sbc = s.sbc := rfl
@[simp] theorem putNZ_platform (s : State) (d : Reg) (r : Word) : (s.putNZ d r).platform = s.platform := rfl
@[simp] theorem putNZ_inputs (s : State) (d : Reg) (r : Word) : (s.putNZ d r).inputs = s.inputs := rfl
@[simp] theorem putNZ_draws (s : State) (d : Reg) (r : Word) : (s.putNZ d r).draws = s.draws := rfl

@[simp] theorem putNZC_pc (s : State) (d : Reg) (r : Word) (c : Bool) : (s.putNZC d r c).pc = s.pc := rfl
@[simp] theorem putNZC_su (s : State) (d : Reg) (r : Word) (c : Bool) : (s.putNZC d r c).su = s.su := rfl
@[simp] theorem putNZC_ss (s : State) (d : Reg) (r : Word) (c : Bool) : (s.putNZC d r c).ss = s.ss := rfl
@[simp] theorem putNZC_vb (s : State) (d : Reg) (r : Word) (c : Bool) : (s.putNZC d r c).vb = s.vb := rfl
@[simp] theorem putNZC_im (s : State) (d : Reg) (r : Word) (c : Bool) : (s.putNZC d r c).im = s.im := rfl
@[simp] theorem putNZC_ic (s : State) (d : Reg) (r : Word) (c : Bool) : (s.putNZC d r c).ic = s.ic := rfl
@[simp] theorem putNZC_fa (s : State) (d : Reg) (r : Word) (c : Bool) : (s.putNZC d r c).fa = s.fa := rfl
@[simp] theorem putNZC_tu (s : State) (d : Reg) (r : Word) (c : Bool) : (s.putNZC d r c).tu = s.tu := rfl
@[simp] theorem putNZC_ts (s : State) (d : Reg) (r : Word) (c : Bool) : (s.putNZC d r c).ts = s.ts := rfl
@[simp] theorem putNZC_cl (s : State) (d : Reg) (r : Word) (c : Bool) : (s.putNZC d r c).cl = s.cl := rfl
@[simp] theorem putNZC_cc (s : State) (d : Reg) (r : Word) (c : Bool) : (s.putNZC d r c).cc = s.cc := rfl
@[simp] theorem putNZC_asleep (s : State) (d : Reg) (r : Word) (c : Bool) : (s.putNZC d r c).asleep = s.asleep := rfl
@[simp] theorem putNZC_resetPending (s : State) (d : Reg) (r : Word) (c : Bool) : (s.putNZC d r c).resetPending = s.resetPending := rfl
@[simp] theorem putNZC_debugLatch (s : State) (d : Reg) (r : Word) (c : Bool) : (s.putNZC d r c).debugLatch = s.debugLatch := rfl
@[simp] theorem putNZC_resetLine (s : State) (d : Reg) (r : Word) (c : Bool) : (s.putNZC d r c).resetLine = s.resetLine := rfl
@[simp] theorem putNZC_debugLine (s : State) (d : Reg) (r : Word) (c : Bool) : (s.putNZC d r c).debugLine = s.debugLine := rfl
@[simp] theorem putNZC_ram (s : State) (d : Reg) (r : Word) (c : Bool) : (s.putNZC d r c).ram = s.ram := rfl
@[simp] theorem putNZC_rom (s : State) (d : Reg) (r : Word) (c : Bool) : (s.putNZC d r c).rom = s.rom := rfl
@[simp] theorem putNZC_sbc (s : State) (d : Reg) (r : Word) (c : Bool) : (s.putNZC d r c).sbc = s.sbc := rfl
@[simp] theorem putNZC_platform (s : State) (d : Reg) (r : Word) (c : Bool) : (s.putNZC d r c).platform = s.platform := rfl
@[simp] theorem putNZC_inputs (s : State) (d : Reg) (r : Word) (c : Bool) : (s.putNZC d r c).inputs = s.inputs := rfl
@[simp] theorem putNZC_draws (s : State) (d : Reg) (r : Word) (c : Bool) : (s.putNZC d r c).draws = s.draws := rfl

@[simp] theorem putAlu_pc (s : State) (d : Reg) (r : AluResult) : (s.putAlu d r).pc = s.pc := rfl
@[simp] theorem putAlu_su (s : State) (d : Reg) (r : AluResult) : (s.putAlu d r).su = s.su := rfl
@[simp] theorem putAlu_ss (s : State) (d : Reg) (r : AluResult) : (s.putAlu d r).ss = s.ss := rfl
@[simp] theorem putAlu_vb (s : State) (d : Reg) (r : AluResult) : (s.putAlu d r).vb = s.vb := rfl
@[simp] theorem putAlu_im (s : State) (d : Reg) (r : AluResult) : (s.putAlu d r).im = s.im := rfl
@[simp] theorem putAlu_ic (s : State) (d : Reg) (r : AluResult) : (s.putAlu d r).ic = s.ic := rfl
@[simp] theorem putAlu_fa (s : State) (d : Reg) (r : AluResult) : (s.putAlu d r).fa = s.fa := rfl
@[simp] theorem putAlu_tu (s : State) (d : Reg) (r : AluResult) : (s.putAlu d r).tu = s.tu := rfl
@[simp] theorem putAlu_ts (s : State) (d : Reg) (r : AluResult) : (s.putAlu d r).ts = s.ts := rfl
@[simp] theorem putAlu_cl (s : State) (d : Reg) (r : AluResult) : (s.putAlu d r).cl = s.cl := rfl
@[simp] theorem putAlu_cc (s : State) (d : Reg) (r : AluResult) : (s.putAlu d r).cc = s.cc := rfl
@[simp] theorem putAlu_asleep (s : State) (d : Reg) (r : AluResult) : (s.putAlu d r).asleep = s.asleep := rfl
@[simp] theorem putAlu_resetPending (s : State) (d : Reg) (r : AluResult) : (s.putAlu d r).resetPending = s.resetPending := rfl
@[simp] theorem putAlu_debugLatch (s : State) (d : Reg) (r : AluResult) : (s.putAlu d r).debugLatch = s.debugLatch := rfl
@[simp] theorem putAlu_resetLine (s : State) (d : Reg) (r : AluResult) : (s.putAlu d r).resetLine = s.resetLine := rfl
@[simp] theorem putAlu_debugLine (s : State) (d : Reg) (r : AluResult) : (s.putAlu d r).debugLine = s.debugLine := rfl
@[simp] theorem putAlu_ram (s : State) (d : Reg) (r : AluResult) : (s.putAlu d r).ram = s.ram := rfl
@[simp] theorem putAlu_rom (s : State) (d : Reg) (r : AluResult) : (s.putAlu d r).rom = s.rom := rfl
@[simp] theorem putAlu_sbc (s : State) (d : Reg) (r : AluResult) : (s.putAlu d r).sbc = s.sbc := rfl
@[simp] theorem putAlu_platform (s : State) (d : Reg) (r : AluResult) : (s.putAlu d r).platform = s.platform := rfl
@[simp] theorem putAlu_inputs (s : State) (d : Reg) (r : AluResult) : (s.putAlu d r).inputs = s.inputs := rfl
@[simp] theorem putAlu_draws (s : State) (d : Reg) (r : AluResult) : (s.putAlu d r).draws = s.draws := rfl

@[simp] theorem putProduct_pc (s : State) (p : Pair) (v : DWord) (n : Bool) : (s.putProduct p v n).pc = s.pc := rfl
@[simp] theorem putProduct_su (s : State) (p : Pair) (v : DWord) (n : Bool) : (s.putProduct p v n).su = s.su := rfl
@[simp] theorem putProduct_ss (s : State) (p : Pair) (v : DWord) (n : Bool) : (s.putProduct p v n).ss = s.ss := rfl
@[simp] theorem putProduct_vb (s : State) (p : Pair) (v : DWord) (n : Bool) : (s.putProduct p v n).vb = s.vb := rfl
@[simp] theorem putProduct_im (s : State) (p : Pair) (v : DWord) (n : Bool) : (s.putProduct p v n).im = s.im := rfl
@[simp] theorem putProduct_ic (s : State) (p : Pair) (v : DWord) (n : Bool) : (s.putProduct p v n).ic = s.ic := rfl
@[simp] theorem putProduct_fa (s : State) (p : Pair) (v : DWord) (n : Bool) : (s.putProduct p v n).fa = s.fa := rfl
@[simp] theorem putProduct_tu (s : State) (p : Pair) (v : DWord) (n : Bool) : (s.putProduct p v n).tu = s.tu := rfl
@[simp] theorem putProduct_ts (s : State) (p : Pair) (v : DWord) (n : Bool) : (s.putProduct p v n).ts = s.ts := rfl
@[simp] theorem putProduct_cl (s : State) (p : Pair) (v : DWord) (n : Bool) : (s.putProduct p v n).cl = s.cl := rfl
@[simp] theorem putProduct_cc (s : State) (p : Pair) (v : DWord) (n : Bool) : (s.putProduct p v n).cc = s.cc := rfl
@[simp] theorem putProduct_asleep (s : State) (p : Pair) (v : DWord) (n : Bool) : (s.putProduct p v n).asleep = s.asleep := rfl
@[simp] theorem putProduct_resetPending (s : State) (p : Pair) (v : DWord) (n : Bool) : (s.putProduct p v n).resetPending = s.resetPending := rfl
@[simp] theorem putProduct_debugLatch (s : State) (p : Pair) (v : DWord) (n : Bool) : (s.putProduct p v n).debugLatch = s.debugLatch := rfl
@[simp] theorem putProduct_resetLine (s : State) (p : Pair) (v : DWord) (n : Bool) : (s.putProduct p v n).resetLine = s.resetLine := rfl
@[simp] theorem putProduct_debugLine (s : State) (p : Pair) (v : DWord) (n : Bool) : (s.putProduct p v n).debugLine = s.debugLine := rfl
@[simp] theorem putProduct_ram (s : State) (p : Pair) (v : DWord) (n : Bool) : (s.putProduct p v n).ram = s.ram := rfl
@[simp] theorem putProduct_rom (s : State) (p : Pair) (v : DWord) (n : Bool) : (s.putProduct p v n).rom = s.rom := rfl
@[simp] theorem putProduct_sbc (s : State) (p : Pair) (v : DWord) (n : Bool) : (s.putProduct p v n).sbc = s.sbc := rfl
@[simp] theorem putProduct_platform (s : State) (p : Pair) (v : DWord) (n : Bool) : (s.putProduct p v n).platform = s.platform := rfl
@[simp] theorem putProduct_inputs (s : State) (p : Pair) (v : DWord) (n : Bool) : (s.putProduct p v n).inputs = s.inputs := rfl
@[simp] theorem putProduct_draws (s : State) (p : Pair) (v : DWord) (n : Bool) : (s.putProduct p v n).draws = s.draws := rfl

@[simp] theorem putQuotient_pc (s : State) (p : Pair) (q r : Word) : (s.putQuotient p q r).pc = s.pc := rfl
@[simp] theorem putQuotient_ps (s : State) (p : Pair) (q r : Word) : (s.putQuotient p q r).ps = s.ps := rfl
@[simp] theorem putQuotient_su (s : State) (p : Pair) (q r : Word) : (s.putQuotient p q r).su = s.su := rfl
@[simp] theorem putQuotient_ss (s : State) (p : Pair) (q r : Word) : (s.putQuotient p q r).ss = s.ss := rfl
@[simp] theorem putQuotient_vb (s : State) (p : Pair) (q r : Word) : (s.putQuotient p q r).vb = s.vb := rfl
@[simp] theorem putQuotient_im (s : State) (p : Pair) (q r : Word) : (s.putQuotient p q r).im = s.im := rfl
@[simp] theorem putQuotient_ic (s : State) (p : Pair) (q r : Word) : (s.putQuotient p q r).ic = s.ic := rfl
@[simp] theorem putQuotient_fa (s : State) (p : Pair) (q r : Word) : (s.putQuotient p q r).fa = s.fa := rfl
@[simp] theorem putQuotient_tu (s : State) (p : Pair) (q r : Word) : (s.putQuotient p q r).tu = s.tu := rfl
@[simp] theorem putQuotient_ts (s : State) (p : Pair) (q r : Word) : (s.putQuotient p q r).ts = s.ts := rfl
@[simp] theorem putQuotient_cl (s : State) (p : Pair) (q r : Word) : (s.putQuotient p q r).cl = s.cl := rfl
@[simp] theorem putQuotient_cc (s : State) (p : Pair) (q r : Word) : (s.putQuotient p q r).cc = s.cc := rfl
@[simp] theorem putQuotient_asleep (s : State) (p : Pair) (q r : Word) : (s.putQuotient p q r).asleep = s.asleep := rfl
@[simp] theorem putQuotient_resetPending (s : State) (p : Pair) (q r : Word) : (s.putQuotient p q r).resetPending = s.resetPending := rfl
@[simp] theorem putQuotient_debugLatch (s : State) (p : Pair) (q r : Word) : (s.putQuotient p q r).debugLatch = s.debugLatch := rfl
@[simp] theorem putQuotient_resetLine (s : State) (p : Pair) (q r : Word) : (s.putQuotient p q r).resetLine = s.resetLine := rfl
@[simp] theorem putQuotient_debugLine (s : State) (p : Pair) (q r : Word) : (s.putQuotient p q r).debugLine = s.debugLine := rfl
@[simp] theorem putQuotient_ram (s : State) (p : Pair) (q r : Word) : (s.putQuotient p q r).ram = s.ram := rfl
@[simp] theorem putQuotient_rom (s : State) (p : Pair) (q r : Word) : (s.putQuotient p q r).rom = s.rom := rfl
@[simp] theorem putQuotient_sbc (s : State) (p : Pair) (q r : Word) : (s.putQuotient p q r).sbc = s.sbc := rfl
@[simp] theorem putQuotient_platform (s : State) (p : Pair) (q r : Word) : (s.putQuotient p q r).platform = s.platform := rfl
@[simp] theorem putQuotient_inputs (s : State) (p : Pair) (q r : Word) : (s.putQuotient p q r).inputs = s.inputs := rfl
@[simp] theorem putQuotient_draws (s : State) (p : Pair) (q r : Word) : (s.putQuotient p q r).draws = s.draws := rfl

@[simp] theorem branchIf_regs (s : State) {n : Nat} (c : Bool) (i : BitVec n) : (s.branchIf c i).regs = s.regs := by
  unfold State.branchIf; split <;> rfl
@[simp] theorem branchIf_ps (s : State) {n : Nat} (c : Bool) (i : BitVec n) : (s.branchIf c i).ps = s.ps := by
  unfold State.branchIf; split <;> rfl
@[simp] theorem branchIf_su (s : State) {n : Nat} (c : Bool) (i : BitVec n) : (s.branchIf c i).su = s.su := by
  unfold State.branchIf; split <;> rfl
@[simp] theorem branchIf_ss (s : State) {n : Nat} (c : Bool) (i : BitVec n) : (s.branchIf c i).ss = s.ss := by
  unfold State.branchIf; split <;> rfl
@[simp] theorem branchIf_vb (s : State) {n : Nat} (c : Bool) (i : BitVec n) : (s.branchIf c i).vb = s.vb := by
  unfold State.branchIf; split <;> rfl
@[simp] theorem branchIf_im (s : State) {n : Nat} (c : Bool) (i : BitVec n) : (s.branchIf c i).im = s.im := by
  unfold State.branchIf; split <;> rfl
@[simp] theorem branchIf_ic (s : State) {n : Nat} (c : Bool) (i : BitVec n) : (s.branchIf c i).ic = s.ic := by
  unfold State.branchIf; split <;> rfl
@[simp] theorem branchIf_fa (s : State) {n : Nat} (c : Bool) (i : BitVec n) : (s.branchIf c i).fa = s.fa := by
  unfold State.branchIf; split <;> rfl
@[simp] theorem branchIf_tu (s : State) {n : Nat} (c : Bool) (i : BitVec n) : (s.branchIf c i).tu = s.tu := by
  unfold State.branchIf; split <;> rfl
@[simp] theorem branchIf_ts (s : State) {n : Nat} (c : Bool) (i : BitVec n) : (s.branchIf c i).ts = s.ts := by
  unfold State.branchIf; split <;> rfl
@[simp] theorem branchIf_cl (s : State) {n : Nat} (c : Bool) (i : BitVec n) : (s.branchIf c i).cl = s.cl := by
  unfold State.branchIf; split <;> rfl
@[simp] theorem branchIf_cc (s : State) {n : Nat} (c : Bool) (i : BitVec n) : (s.branchIf c i).cc = s.cc := by
  unfold State.branchIf; split <;> rfl
@[simp] theorem branchIf_asleep (s : State) {n : Nat} (c : Bool) (i : BitVec n) : (s.branchIf c i).asleep = s.asleep := by
  unfold State.branchIf; split <;> rfl
@[simp] theorem branchIf_resetPending (s : State) {n : Nat} (c : Bool) (i : BitVec n) : (s.branchIf c i).resetPending = s.resetPending := by
  unfold State.branchIf; split <;> rfl
@[simp] theorem branchIf_debugLatch (s : State) {n : Nat} (c : Bool) (i : BitVec n) : (s.branchIf c i).debugLatch = s.debugLatch := by
  unfold State.branchIf; split <;> rfl
@[simp] theorem branchIf_resetLine (s : State) {n : Nat} (c : Bool) (i : BitVec n) : (s.branchIf c i).resetLine = s.resetLine := by
  unfold State.branchIf; split <;> rfl
@[simp] theorem branchIf_debugLine (s : State) {n : Nat} (c : Bool) (i : BitVec n) : (s.branchIf c i).debugLine = s.debugLine := by
  unfold State.branchIf; split <;> rfl
@[simp] theorem branchIf_ram (s : State) {n : Nat} (c : Bool) (i : BitVec n) : (s.branchIf c i).ram = s.ram := by
  unfold State.branchIf; split <;> rfl
@[simp] theorem branchIf_rom (s : State) {n : Nat} (c : Bool) (i : BitVec n) : (s.branchIf c i).rom = s.rom := by
  unfold State.branchIf; split <;> rfl
@[simp] theorem branchIf_sbc (s : State) {n : Nat} (c : Bool) (i : BitVec n) : (s.branchIf c i).sbc = s.sbc := by
  unfold State.branchIf; split <;> rfl
@[simp] theorem branchIf_platform (s : State) {n : Nat} (c : Bool) (i : BitVec n) : (s.branchIf c i).platform = s.platform := by
  unfold State.branchIf; split <;> rfl
@[simp] theorem branchIf_inputs (s : State) {n : Nat} (c : Bool) (i : BitVec n) : (s.branchIf c i).inputs = s.inputs := by
  unfold State.branchIf; split <;> rfl
@[simp] theorem branchIf_draws (s : State) {n : Nat} (c : Bool) (i : BitVec n) : (s.branchIf c i).draws = s.draws := by
  unfold State.branchIf; split <;> rfl

@[simp] theorem freeReg_pc (s : State) (r : Reg) : (s.freeReg r).pc = s.pc := rfl
@[simp] theorem freeReg_ps (s : State) (r : Reg) : (s.freeReg r).ps = s.ps := rfl
@[simp] theorem freeReg_su (s : State) (r : Reg) : (s.freeReg r).su = s.su := rfl
@[simp] theorem freeReg_ss (s : State) (r : Reg) : (s.freeReg r).ss = s.ss := rfl
@[simp] theorem freeReg_vb (s : State) (r : Reg) : (s.freeReg r).vb = s.vb := rfl
@[simp] theorem freeReg_im (s : State) (r : Reg) : (s.freeReg r).im = s.im := rfl
@[simp] theorem freeReg_ic (s : State) (r : Reg) : (s.freeReg r).ic = s.ic := rfl
@[simp] theorem freeReg_fa (s : State) (r : Reg) : (s.freeReg r).fa = s.fa := rfl
@[simp] theorem freeReg_tu (s : State) (r : Reg) : (s.freeReg r).tu = s.tu := rfl
@[simp] theorem freeReg_ts (s : State) (r : Reg) : (s.freeReg r).ts = s.ts := rfl
@[simp] theorem freeReg_cl (s : State) (r : Reg) : (s.freeReg r).cl = s.cl := rfl
@[simp] theorem freeReg_cc (s : State) (r : Reg) : (s.freeReg r).cc = s.cc := rfl
@[simp] theorem freeReg_asleep (s : State) (r : Reg) : (s.freeReg r).asleep = s.asleep := rfl
@[simp] theorem freeReg_resetPending (s : State) (r : Reg) : (s.freeReg r).resetPending = s.resetPending := rfl
@[simp] theorem freeReg_debugLatch (s : State) (r : Reg) : (s.freeReg r).debugLatch = s.debugLatch := rfl
@[simp] theorem freeReg_resetLine (s : State) (r : Reg) : (s.freeReg r).resetLine = s.resetLine := rfl
@[simp] theorem freeReg_debugLine (s : State) (r : Reg) : (s.freeReg r).debugLine = s.debugLine := rfl
@[simp] theorem freeReg_ram (s : State) (r : Reg) : (s.freeReg r).ram = s.ram := rfl
@[simp] theorem freeReg_rom (s : State) (r : Reg) : (s.freeReg r).rom = s.rom := rfl
@[simp] theorem freeReg_sbc (s : State) (r : Reg) : (s.freeReg r).sbc = s.sbc := rfl
@[simp] theorem freeReg_platform (s : State) (r : Reg) : (s.freeReg r).platform = s.platform := rfl
@[simp] theorem freeReg_inputs (s : State) (r : Reg) : (s.freeReg r).inputs = s.inputs := rfl

@[simp] theorem setNZ_ps_mode (s : State) (r : Word) : (s.setNZ r).ps.mode = s.ps.mode := rfl
@[simp] theorem setNZ_ps_mmu (s : State) (r : Word) : (s.setNZ r).ps.mmu = s.ps.mmu := rfl
@[simp] theorem setNZ_ps_ie (s : State) (r : Word) : (s.setNZ r).ps.ie = s.ps.ie := rfl
@[simp] theorem setNZ_ps_level (s : State) (r : Word) : (s.setNZ r).ps.level = s.ps.level := rfl

@[simp] theorem setC_ps_mode (s : State) (b : Bool) : (s.setC b).ps.mode = s.ps.mode := rfl
@[simp] theorem setC_ps_mmu (s : State) (b : Bool) : (s.setC b).ps.mmu = s.ps.mmu := rfl
@[simp] theorem setC_ps_ie (s : State) (b : Bool) : (s.setC b).ps.ie = s.ps.ie := rfl
@[simp] theorem setC_ps_level (s : State) (b : Bool) : (s.setC b).ps.level = s.ps.level := rfl

@[simp] theorem setV_ps_mode (s : State) (b : Bool) : (s.setV b).ps.mode = s.ps.mode := rfl
@[simp] theorem setV_ps_mmu (s : State) (b : Bool) : (s.setV b).ps.mmu = s.ps.mmu := rfl
@[simp] theorem setV_ps_ie (s : State) (b : Bool) : (s.setV b).ps.ie = s.ps.ie := rfl
@[simp] theorem setV_ps_level (s : State) (b : Bool) : (s.setV b).ps.level = s.ps.level := rfl

@[simp] theorem setZ_ps_mode (s : State) (b : Bool) : (s.setZ b).ps.mode = s.ps.mode := rfl
@[simp] theorem setZ_ps_mmu (s : State) (b : Bool) : (s.setZ b).ps.mmu = s.ps.mmu := rfl
@[simp] theorem setZ_ps_ie (s : State) (b : Bool) : (s.setZ b).ps.ie = s.ps.ie := rfl
@[simp] theorem setZ_ps_level (s : State) (b : Bool) : (s.setZ b).ps.level = s.ps.level := rfl

@[simp] theorem setN_ps_mode (s : State) (b : Bool) : (s.setN b).ps.mode = s.ps.mode := rfl
@[simp] theorem setN_ps_mmu (s : State) (b : Bool) : (s.setN b).ps.mmu = s.ps.mmu := rfl
@[simp] theorem setN_ps_ie (s : State) (b : Bool) : (s.setN b).ps.ie = s.ps.ie := rfl
@[simp] theorem setN_ps_level (s : State) (b : Bool) : (s.setN b).ps.level = s.ps.level := rfl

@[simp] theorem setFlags_ps_mode (s : State) (r : AluResult) : (s.setFlags r).ps.mode = s.ps.mode := rfl
@[simp] theorem setFlags_ps_mmu (s : State) (r : AluResult) : (s.setFlags r).ps.mmu = s.ps.mmu := rfl
@[simp] theorem setFlags_ps_ie (s : State) (r : AluResult) : (s.setFlags r).ps.ie = s.ps.ie := rfl
@[simp] theorem setFlags_ps_level (s : State) (r : AluResult) : (s.setFlags r).ps.level = s.ps.level := rfl

@[simp] theorem setBitFlags_ps_mode (s : State) (old c : Bool) : (s.setBitFlags old c).ps.mode = s.ps.mode := rfl
@[simp] theorem setBitFlags_ps_mmu (s : State) (old c : Bool) : (s.setBitFlags old c).ps.mmu = s.ps.mmu := rfl
@[simp] theorem setBitFlags_ps_ie (s : State) (old c : Bool) : (s.setBitFlags old c).ps.ie = s.ps.ie := rfl
@[simp] theorem setBitFlags_ps_level (s : State) (old c : Bool) : (s.setBitFlags old c).ps.level = s.ps.level := rfl

/-- Reading a general register after writing one. -/
@[simp] theorem reg_setReg (s : State) (r q : Reg) (v : Word) :
    (s.setReg r v).reg q = if q = r then v else s.reg q := by
  unfold State.reg State.setReg
  rw [Vector.getElem_set]
  by_cases h : q = r
  · simp [h]
  · have : ¬ r.toNat = q.toNat := fun hh => h (BitVec.eq_of_toNat_eq hh.symm)
    simp [h, this]

/-- Reading a general register of a state whose register file is another's. -/
theorem reg_of_regs {s t : State} (h : t.regs = s.regs) (r : Reg) : t.reg r = s.reg r := by
  unfold State.reg; rw [h]

theorem pairHi_ne_pairLo (p q : Pair) : pairHi p ≠ pairLo q := by revert p q; decide

theorem pairLo_ne_pairHi (p q : Pair) : pairLo p ≠ pairHi q := by revert p q; decide

/-- Reading a pair after writing it gives the value written. -/
@[simp] theorem pair_setPair (s : State) (p : Pair) (v : DWord) : (s.setPair p v).pair p = v := by
  simp only [State.pair, State.setPair, reg_setReg, if_true, pairLo_ne_pairHi, if_false]
  ext i hi
  simp only [BitVec.getElem_append, BitVec.getElem_extractLsb']
  split <;> simp_all [BitVec.getLsbD_eq_getElem]

/-- A register outside the pair keeps its value. -/
theorem reg_setPair_of_ne (s : State) (p : Pair) (v : DWord) (q : Reg) (hl : q ≠ pairLo p) (hh : q ≠ pairHi p) :
    (s.setPair p v).reg q = s.reg q := by
  simp [State.setPair, hl, hh]

/-- The stack pointer read back after being set. -/
@[simp] theorem sp_setSp (s : State) (v : Word) : (s.setSp v).sp = v := by
  cases hm : s.ps.mode <;> simp [State.setSp, State.sp, hm]

end Sys2Proof.Laws
end

