-- ==== Sys2Proof/Laws/Bus.lean ====
section
/-! SUPPORT. What reads and writes of physical memory can do. -/

namespace Sys2Proof.Laws

open Sys2Proof.Machine

theorem same_refl (s : State) : SameButMemory s s := rfl

theorem same_trans {s t u : State} (h : SameButMemory s t) (k : SameButMemory t u) : SameButMemory s u := by
  unfold SameButMemory at *
  rw [k, h]

/-- An access step: only RAM and the draw counter can differ, RAM stays canonical and stays within RAM addresses. -/
def MemoryStep (s t : State) : Prop :=
  SameButMemory s t ∧ (s.ram.wf = true → t.ram.wf = true) ∧ (s.ramOk = true → t.ramOk = true)

theorem MemoryStep.refl (s : State) : MemoryStep s s := ⟨rfl, id, id⟩

theorem MemoryStep.trans {s t u : State} (h : MemoryStep s t) (k : MemoryStep t u) : MemoryStep s u :=
  ⟨same_trans h.1 k.1, fun x => k.2.1 (h.2.1 x), fun x => k.2.2 (h.2.2 x)⟩

/-- What a physical byte is depends on the platform and the windows only. -/
theorem kindAt_congr {s t : State} (hp : t.platform = s.platform) (hw : t.sbc.windows = s.sbc.windows) (a : DWord) :
    t.kindAt a = s.kindAt a := by
  unfold State.kindAt; rw [hp, hw]

/-- What memory holds depends on RAM, ROM, the platform and the windows only. -/
theorem byteAt_congr {s t : State} (hp : t.platform = s.platform) (hw : t.sbc.windows = s.sbc.windows)
    (hram : t.ram = s.ram) (hrom : t.rom = s.rom) (a : DWord) : t.byteAt a = s.byteAt a := by
  unfold State.byteAt; rw [kindAt_congr hp hw, hram, hrom]

theorem same_kindAt {s t : State} (h : SameButMemory s t) (a : DWord) : t.kindAt a = s.kindAt a := by
  unfold SameButMemory at h; rw [h]; exact kindAt_congr rfl rfl a

/-- A read of one physical byte leaves the state alone, but for the draw counter. -/
theorem physRead1_state (s : State) (a : DWord) :
    (s.physRead1 a).2 = s ∨ (s.physRead1 a).2 = { s with draws := s.draws + 1 } := by
  unfold State.physRead1; split <;> simp

/-- A byte outside device windows reads as memory holds it, and the state is unchanged. -/
theorem physRead1_own (s : State) (a : DWord) (h : s.ownByte a = true) : s.physRead1 a = (s.byteAt a, s) := by
  unfold State.ownByte at h
  unfold State.physRead1
  split at h <;> simp_all

theorem physRead1_memory (s : State) (a : DWord) : MemoryStep s (s.physRead1 a).2 := by
  rcases physRead1_state s a with h | h <;> rw [h]
  · exact MemoryStep.refl s
  · exact ⟨rfl, id, id⟩

theorem physRead2_memory (s : State) (a : DWord) : MemoryStep s (s.physRead2 a).2 :=
  (physRead1_memory s a).trans (physRead1_memory _ (a + 1#32))

theorem physRead4_memory (s : State) (a : DWord) : MemoryStep s (s.physRead4 a).2 :=
  (physRead2_memory s a).trans (physRead2_memory _ (a + 2#32))

/-- A word outside device windows reads as memory holds it, and the state is unchanged. -/
theorem physRead2_own (s : State) (a : DWord) (h : s.ownWord a = true) : s.physRead2 a = (s.wordAt a, s) := by
  unfold State.ownWord at h
  simp only [Bool.and_eq_true] at h
  simp [State.physRead2, physRead1_own, h.1, h.2, State.wordAt]

theorem append_four_bytes (b3 b2 b1 b0 : Byte) : (b3 ++ b2) ++ (b1 ++ b0) = b3 ++ b2 ++ b1 ++ b0 := by
  ext i hi
  simp only [BitVec.getElem_append]
  repeat' split
  all_goals first | rfl | omega

/-- Four bytes outside device windows read as memory holds them, and the state is unchanged. -/
theorem physRead4_own (s : State) (a : DWord) (h : s.ownDWord a = true) : s.physRead4 a = (s.dwordAt a, s) := by
  unfold State.ownDWord at h
  simp only [Bool.and_eq_true] at h
  have e : a + 2#32 + 1#32 = a + 3#32 := by rw [BitVec.add_assoc]; rfl
  unfold State.physRead4
  rw [physRead2_own s a h.1]
  simp only
  rw [physRead2_own s _ h.2]
  unfold State.wordAt State.dwordAt
  rw [append_four_bytes, e]

/-- A write of one physical byte changes RAM at most. -/
theorem physWrite1_same (s : State) (a : DWord) (v : Byte) :
    s.physWrite1 a v = { s with ram := (s.physWrite1 a v).ram } := by
  unfold State.physWrite1; split <;> rfl

/-- RAM below 64 KiB ends at `lowRamEnd` (R113). -/
theorem isRam_low (p : Platform) (a : Nat) (h : a < 0x10000) : p.isRam a = decide (a < p.lowRamEnd) := by
  rw [Bool.eq_iff_iff]
  simp only [Platform.isRam, Platform.lowRamEnd, if_pos h, Bool.and_eq_true, decide_eq_true_eq, Nat.lt_min]
  exact and_comm

/-- What `connectWord` does: of the platform only the extent of low RAM or low ROM can grow, and an even address where R113
puts RAM or ROM then has both its bytes there. -/
theorem connectWord_spec (p : Platform) (a : Nat) (heven : a % 2 = 0) :
    (∃ ram rom, p.connectWord a = { p with lowRam := ram, lowRom := rom } ∧ p.lowRam ≤ ram ∧ p.lowRom ≤ rom) ∧
    (a < 0x8000 → (p.connectWord a).isRam a = true ∧ (p.connectWord a).isRam (a + 1) = true) ∧
    (0xC000 ≤ a → a < 0x10000 → (p.connectWord a).isRom a = true ∧ (p.connectWord a).isRom (a + 1) = true) := by
  unfold Platform.connectWord
  refine ⟨?_, fun h => ?_, fun h k => ?_⟩
  · split
    · exact ⟨_, p.lowRom, rfl, by omega, le_refl _⟩
    · split
      · exact ⟨p.lowRam, _, rfl, le_refl _, by omega⟩
      · exact ⟨p.lowRam, p.lowRom, rfl, le_refl _, le_refl _⟩
  · have h1 : a < 0x10000 := by omega
    have h2 : a + 1 < 0x10000 := by omega
    rw [if_pos h]
    simp only [Platform.isRam, if_pos h1, if_pos h2, Bool.and_eq_true, decide_eq_true_eq]
    omega
  · have h1 : ¬a < 0x8000 := by omega
    have h2 : a + 1 < 0x10000 := by omega
    have h3 : 0xC000 ≤ a ∧ a < 0x10000 := ⟨h, k⟩
    have h4 : ¬a + 1 < 0x8000 := by omega
    rw [if_neg h1, if_pos h3]
    simp only [Platform.isRom, Platform.isRam, Platform.lowRomStart, if_pos k, if_pos h2, h1, h4, decide_false,
      Bool.false_and, Bool.false_eq_true, if_false]
    have h5 : ∀ n, 0x10000 - a ≤ n → 0x10000 - min n 0x4000 ≤ a := by
      intro n hn
      rcases Nat.le_total n 0x4000 with hle | hle
      · rw [Nat.min_eq_left hle]; omega
      · rw [Nat.min_eq_right hle]; omega
    have h6 := h5 (p.lowRom - (0x10000 - a) + (0x10000 - a)) (by omega)
    exact ⟨decide_eq_true h6, decide_eq_true (Nat.le_succ_of_le h6)⟩

theorem physWrite1_memory (s : State) (a : DWord) (v : Byte) : MemoryStep s (s.physWrite1 a v) := by
  refine ⟨?_, ?_, ?_⟩
  · unfold SameButMemory State.physWrite1; split <;> rfl
  · unfold State.physWrite1
    split
    · exact fun h => Memory.write_wf s.ram a.toNat v h
    all_goals exact id
  · unfold State.physWrite1
    split
    · rename_i hk
      intro h
      have hram : s.platform.isRam a.toNat = true := by
        unfold State.kindAt at hk
        split at hk
        · assumption
        · split at hk
          · cases hk
          · split at hk <;> cases hk
      simp only [State.ramOk, List.all_eq_true, Bool.and_eq_true, decide_eq_true_eq] at h ⊢
      intro e he
      rcases mem_sparseSet unlistedByte s.ram a.toNat v e he with rfl | he
      · exact ⟨a.isLt, hram⟩
      · exact h e he
    all_goals exact id

theorem physWrite2_memory (s : State) (a : DWord) (v : Word) : MemoryStep s (s.physWrite2 a v) :=
  (physWrite1_memory s a _).trans (physWrite1_memory _ (a + 1#32) _)

theorem physWrite4_memory (s : State) (a : DWord) (v : DWord) : MemoryStep s (s.physWrite4 a v) :=
  (physWrite2_memory s a _).trans (physWrite2_memory _ (a + 2#32) _)

/-- A write of one byte leaves what every other byte reads as. -/
theorem byteAt_physWrite1_of_ne (s : State) (a b : DWord) (v : Byte) (hne : b ≠ a) :
    (s.physWrite1 a v).byteAt b = s.byteAt b := by
  have hk : (s.physWrite1 a v).kindAt b = s.kindAt b := same_kindAt (physWrite1_memory s a v).1 b
  unfold State.byteAt
  rw [hk]
  unfold State.physWrite1
  have hn : b.toNat ≠ a.toNat := fun h => hne (BitVec.eq_of_toNat_eq h)
  cases s.kindAt b <;> cases s.kindAt a <;> simp [Memory.read_write_of_ne _ _ _ _ hn]

/-- A written byte of RAM reads back. -/
theorem byteAt_physWrite1_ram (s : State) (a : DWord) (v : Byte) (hw : s.ram.wf = true) (hk : s.kindAt a = .ram) :
    (s.physWrite1 a v).byteAt a = v := by
  have hk' : (s.physWrite1 a v).kindAt a = .ram := by rw [same_kindAt (physWrite1_memory s a v).1 a, hk]
  unfold State.byteAt
  rw [hk']
  unfold State.physWrite1
  simp [hk, Memory.read_write _ _ _ _ hw]

end Sys2Proof.Laws
end

