-- ==== Sys2Proof/Laws/Access.lean ====
section
/-! SUPPORT. What the shared operations over memory can do, said once each: an access, finished or aborted, changes RAM and the
draw counter only; an exception entry changes those and the registers the entry sequence names. -/

namespace Sys2Proof.Laws

open Sys2Proof.Machine

/-- The state an operation ends in, finished or aborted. -/
def final {α : Type} : Access α → State
  | .done _ t => t
  | .abort _ t => t

@[simp] theorem final_done {α : Type} (a : α) (t : State) : final (.done a t) = t := rfl
@[simp] theorem final_abort {α : Type} (e : FaultCause) (t : State) : final (.abort e t : Access α) = t := rfl

@[simp] theorem bind_done {α β : Type} (a : α) (t : State) (f : α → State → Access β) :
    (Access.done a t).bind f = f a t := rfl
@[simp] theorem bind_abort {α β : Type} (e : FaultCause) (t : State) (f : α → State → Access β) :
    (Access.abort e t).bind f = .abort e t := rfl

/-- A sequence of two operations is an access step if both parts are. -/
theorem bind_memory {α β : Type} (s : State) (x : Access α) (f : α → State → Access β)
    (hx : MemoryStep s (final x)) (hf : ∀ a t, MemoryStep t (final (f a t))) : MemoryStep s (final (x.bind f)) := by
  cases x with
  | done a t => exact hx.trans (hf a t)
  | abort e t => exact hx

/-- A sequence that finishes: its first part finished. -/
theorem bind_eq_done {α β : Type} {x : Access α} {f : α → State → Access β} {b : β} {u : State}
    (h : x.bind f = .done b u) : ∃ a t, x = .done a t ∧ f a t = .done b u := by
  cases x with
  | done a t => exact ⟨a, t, rfl, h⟩
  | abort e t => cases h

/-- A sequence that aborts: its first part did, or finished and the second did. -/
theorem bind_eq_abort {α β : Type} {x : Access α} {f : α → State → Access β} {e : FaultCause} {u : State}
    (h : x.bind f = .abort e u) : x = .abort e u ∨ ∃ a t, x = .done a t ∧ f a t = .abort e u := by
  cases x with
  | done a t => exact .inr ⟨a, t, rfl, h⟩
  | abort e' t => left; simpa using h

theorem writeBack_memory (s : State) (a old new : DWord) : MemoryStep s (s.writeBack a old new) := by
  unfold State.writeBack
  split
  · exact MemoryStep.refl s
  · exact physWrite4_memory s a new

theorem translate_memory (s : State) (p : Privilege) (k : AccessKind) (va : Word) :
    MemoryStep s (final (s.translate p k va)) := by
  unfold State.translate
  split
  · simp only
    split
    · split
      · exact physRead4_memory s _
      · exact (physRead4_memory s _).trans (writeBack_memory _ _ _ _)
    · exact MemoryStep.refl s
  · exact MemoryStep.refl s

theorem translateWord_memory (s : State) (p : Privilege) (k : AccessKind) (va : Word) :
    MemoryStep s (final (s.translateWord p k va)) := by
  unfold State.translateWord
  split
  · exact MemoryStep.refl s
  · exact translate_memory s p k va

theorem readWordAs_memory (s : State) (p : Privilege) (k : AccessKind) (va : Word) :
    MemoryStep s (final (s.readWordAs p k va)) :=
  bind_memory s _ _ (translateWord_memory s p k va) fun pa t => physRead2_memory t pa

theorem readByteAs_memory (s : State) (p : Privilege) (va : Word) : MemoryStep s (final (s.readByteAs p va)) :=
  bind_memory s _ _ (translate_memory s p .read va) fun pa t => physRead1_memory t pa

theorem writeWordAs_memory (s : State) (p : Privilege) (va v : Word) : MemoryStep s (final (s.writeWordAs p va v)) :=
  bind_memory s _ _ (translateWord_memory s p .write va) fun pa t => physWrite2_memory t pa v

theorem writeByteAs_memory (s : State) (p : Privilege) (va : Word) (v : Byte) :
    MemoryStep s (final (s.writeByteAs p va v)) :=
  bind_memory s _ _ (translate_memory s p .write va) fun pa t => physWrite1_memory t pa v

theorem modifyWord_memory (s : State) (va : Word) (f : Word → Word) : MemoryStep s (final (s.modifyWord va f)) :=
  bind_memory s _ _ (translateWord_memory s _ .write va) fun pa t =>
    (physRead2_memory t pa).trans (physWrite2_memory _ pa _)

theorem pushWords_memory (p : Privilege) :
    ∀ (vs : List Word) (s : State) (sp : Word), MemoryStep s (final (s.pushWords p sp vs))
  | [], s, _ => MemoryStep.refl s
  | v :: rest, s, sp =>
    bind_memory s _ _ (writeWordAs_memory s p (sp - 2#16) v) fun _ t => pushWords_memory p rest t (sp - 2#16)

theorem popWords_memory (p : Privilege) :
    ∀ (n : Nat) (s : State) (sp : Word), MemoryStep s (final (s.popWords p sp n))
  | 0, s, _ => MemoryStep.refl s
  | n + 1, s, sp =>
    bind_memory s _ _ (readWordAs_memory s p .read sp) fun _ t =>
      bind_memory t _ _ (popWords_memory p n t (sp + 2#16)) fun _ u => MemoryStep.refl u

theorem popFrame_memory (s : State) : MemoryStep s (final s.popFrame) :=
  bind_memory s _ _ (readWordAs_memory s _ _ _) fun _ t =>
    bind_memory t _ _ (readWordAs_memory t _ _ _) fun _ u =>
      bind_memory u _ _ (readWordAs_memory u _ _ _) fun _ v => MemoryStep.refl v

theorem userEntry_memory (s : State) (b : Bool) (x : Word) : MemoryStep s (final (s.userEntry b x)) := by
  unfold State.userEntry
  split
  · split <;> exact MemoryStep.refl s
  · exact MemoryStep.refl s

/-- What an exception entry can change, finished or not: RAM, the draw counter, PC, PS, SS, IC, FA, IM, the sleep state and
ResetPending. -/
def EntryStep (s t : State) : Prop :=
  t = { s with ram := t.ram, draws := t.draws, pc := t.pc, ps := t.ps, ss := t.ss, ic := t.ic, fa := t.fa, im := t.im,
               asleep := t.asleep, resetPending := t.resetPending } ∧
  (s.ram.wf = true → t.ram.wf = true) ∧ (s.ramOk = true → t.ramOk = true)

theorem EntryStep.refl (s : State) : EntryStep s s := ⟨rfl, id, id⟩

theorem EntryStep.trans {s t u : State} (h : EntryStep s t) (k : EntryStep t u) : EntryStep s u := by
  refine ⟨?_, fun x => k.2.1 (h.2.1 x), fun x => k.2.2 (h.2.2 x)⟩
  have h1 := h.1
  have k1 := k.1
  rw [k1, h1]

theorem MemoryStep.entry {s t : State} (h : MemoryStep s t) : EntryStep s t := by
  refine ⟨?_, h.2.1, h.2.2⟩
  have h1 := h.1
  unfold SameButMemory at h1
  rw [h1]

theorem enter_entry (s : State) (i : Interrupt) (cause : Word) (address : Option Word) :
    EntryStep s (final (s.enter i cause address)) := by
  have h0 : EntryStep s (s.beginEntry i address) := ⟨rfl, id, id⟩
  unfold State.enter
  have hp := pushWords_memory .supervisor [s.pc, s.ps.toWord, s.ic] (s.beginEntry i address) s.ss
  cases hx : (s.beginEntry i address).pushWords .supervisor s.ss [s.pc, s.ps.toWord, s.ic] with
  | abort e t => rw [hx] at hp; exact h0.trans hp.entry
  | done sp t =>
    rw [hx] at hp
    have h1 : EntryStep s { t with ss := sp, ic := cause } := (h0.trans hp.entry).trans ⟨rfl, id, id⟩
    simp only [bind_done]
    have hr := readWordAs_memory { t with ss := sp, ic := cause } .supervisor .read (t.vb + 2#16 * i.vector)
    cases hy : ({ t with ss := sp, ic := cause } : State).readWordAs .supervisor .read (t.vb + 2#16 * i.vector) with
    | abort e u => rw [hy] at hr; exact h1.trans hr.entry
    | done v u => rw [hy] at hr; exact (h1.trans hr.entry).trans ⟨rfl, id, id⟩

theorem tripleFault_entry (s : State) : EntryStep s s.tripleFault := ⟨rfl, id, id⟩

theorem drawWord_entry (s : State) : EntryStep s s.drawWord.2 := ⟨rfl, id, id⟩

theorem doubleFault_entry (s : State) : EntryStep s s.doubleFault := by
  have h := (drawWord_entry s).trans (enter_entry s.drawWord.2 .double 0#16 (some s.drawWord.1))
  unfold State.doubleFault
  simp only
  split
  · rename_i heq; rw [heq] at h; exact h
  · rename_i heq; rw [heq] at h; exact h.trans (tripleFault_entry _)

theorem faultAddress_entry (s : State) (e : FaultCause) : EntryStep s (s.faultAddress e).2 := by
  cases e <;> exact ⟨rfl, id, id⟩

theorem raiseFault_entry (s : State) (e : FaultCause) : EntryStep s (s.raiseFault e) := by
  unfold State.raiseFault
  split
  · have h := (faultAddress_entry s e).trans
      (enter_entry (s.faultAddress e).2 e.interrupt (e.cause s.inUser) (some (s.faultAddress e).1))
    simp only
    split
    · rename_i heq; rw [heq] at h; exact h
    · rename_i heq; rw [heq] at h; exact h.trans (doubleFault_entry _)
  · split
    · exact doubleFault_entry s
    · exact tripleFault_entry s

theorem takeInterrupt_entry (s : State) (i : Interrupt) (cause : Word) : EntryStep s (s.takeInterrupt i cause) := by
  have h := enter_entry s i cause none
  unfold State.takeInterrupt
  split
  · rename_i heq; rw [heq] at h; exact h
  · rename_i heq; rw [heq] at h; exact h.trans (raiseFault_entry _ _)

/-- The invariant depends only on the contents, the SBC and the platform. -/
theorem inv_of_same {s t : State} (h : s.inv = true) (hrom : t.rom = s.rom) (hsbc : t.sbc = s.sbc)
    (hp : t.platform = s.platform) (hw : t.ram.wf = true) (hr : t.ramOk = true) : t.inv = true := by
  simp only [State.inv, State.canonical, Bool.and_eq_true] at h ⊢
  rw [hrom, hsbc, hp]
  exact ⟨⟨⟨⟨⟨⟨⟨⟨⟨⟨hw, h.1.1.1.1.1.1.1.1.1.2⟩, h.1.1.1.1.1.1.1.1.2⟩, h.1.1.1.1.1.1.1.2⟩, h.1.1.1.1.1.1.2⟩, h.1.1.1.1.1.2⟩,
    hr⟩, h.1.1.1.2⟩, h.1.1.2⟩, h.1.2⟩, h.2⟩

/-- What the invariant says of RAM. -/
theorem ram_of_inv {s : State} (h : s.inv = true) : s.ram.wf = true ∧ s.ramOk = true := by
  simp only [State.inv, State.canonical, Bool.and_eq_true] at h
  exact ⟨h.1.1.1.1.1.1.1.1.1.1, h.1.1.1.1.2⟩

end Sys2Proof.Laws
end

