-- ==== Sys2Proof/Laws/PerInstr.lean ====
section
/-! SUPPORT. One statement about every instruction's encoding, proved constructor by constructor: the word is the table row's
fixed bits plus its fields at the places spec/opcode_table.json gives them. -/

set_option Elab.async false

namespace Sys2Proof.Laws

/-- The number of an instruction's word, from the rows of spec/opcode_table.json: `match` plus each field times 2 to its low
bit. -/
def tableNumber : Instr → Nat
  | .add d m n => 0x0000 + n.toNat * 64 + m.toNat * 8 + d.toNat
  | .adc d m n => 0x0200 + n.toNat * 64 + m.toNat * 8 + d.toNat
  | .sub d m n => 0x0400 + n.toNat * 64 + m.toNat * 8 + d.toNat
  | .sbc d m n => 0x0600 + n.toNat * 64 + m.toNat * 8 + d.toNat
  | .mul p m n => 0x0800 + n.toNat * 64 + m.toNat * 8 + p.toNat * 2
  | .mli p m n => 0x0801 + n.toNat * 64 + m.toNat * 8 + p.toNat * 2
  | .div p m n => 0x0A00 + n.toNat * 64 + m.toNat * 8 + p.toNat * 2
  | .dvi p m n => 0x0A01 + n.toNat * 64 + m.toNat * 8 + p.toNat * 2
  | .btt d imm => 0x0C00 + imm.toNat * 8 + d.toNat
  | .bttM d imm => 0x0C80 + imm.toNat * 8 + d.toNat
  | .btx d imm => 0x0D00 + imm.toNat * 8 + d.toNat
  | .btxM d imm => 0x0D80 + imm.toNat * 8 + d.toNat
  | .btc d imm => 0x0E00 + imm.toNat * 8 + d.toNat
  | .btcM d imm => 0x0E80 + imm.toNat * 8 + d.toNat
  | .bts d imm => 0x0F00 + imm.toNat * 8 + d.toNat
  | .btsM d imm => 0x0F80 + imm.toNat * 8 + d.toNat
  | .mviL d imm => 0x1000 + imm.toNat * 8 + d.toNat
  | .mviH d imm => 0x1800 + imm.toNat * 8 + d.toNat
  | .lodBReg d m n => 0x2000 + n.toNat * 64 + m.toNat * 8 + d.toNat
  | .lodBImm d m imm => 0x2200 + imm.toNat * 64 + m.toNat * 8 + d.toNat
  | .lodReg d m n => 0x2400 + n.toNat * 64 + m.toNat * 8 + d.toNat
  | .lodImm d m imm => 0x2600 + imm.toNat * 64 + m.toNat * 8 + d.toNat
  | .lodPc d imm => 0x2C00 + imm.toNat * 8 + d.toNat
  | .lodSp d imm => 0x2E00 + imm.toNat * 8 + d.toNat
  | .stoBReg d m n => 0x3000 + n.toNat * 64 + m.toNat * 8 + d.toNat
  | .stoBImm d m imm => 0x3200 + imm.toNat * 64 + m.toNat * 8 + d.toNat
  | .stoReg d m n => 0x3400 + n.toNat * 64 + m.toNat * 8 + d.toNat
  | .stoImm d m imm => 0x3600 + imm.toNat * 64 + m.toNat * 8 + d.toNat
  | .stoPc d imm => 0x3C00 + imm.toNat * 8 + d.toNat
  | .stoSp d imm => 0x3E00 + imm.toNat * 8 + d.toNat
  | .lslReg d m => 0x4000 + m.toNat * 8 + d.toNat
  | .lslImm d imm => 0x4040 + imm.toNat * 8 + d.toNat
  | .rolReg d m => 0x4080 + m.toNat * 8 + d.toNat
  | .rolImm d imm => 0x40C0 + imm.toNat * 8 + d.toNat
  | .rnlReg d m => 0x4100 + m.toNat * 8 + d.toNat
  | .rnlImm d imm => 0x4140 + imm.toNat * 8 + d.toNat
  | .asrReg d m => 0x4180 + m.toNat * 8 + d.toNat
  | .asrImm d imm => 0x41C0 + imm.toNat * 8 + d.toNat
  | .lsrReg d m => 0x4200 + m.toNat * 8 + d.toNat
  | .lsrImm d imm => 0x4240 + imm.toNat * 8 + d.toNat
  | .rorReg d m => 0x4280 + m.toNat * 8 + d.toNat
  | .rorImm d imm => 0x42C0 + imm.toNat * 8 + d.toNat
  | .rnrReg d m => 0x4300 + m.toNat * 8 + d.toNat
  | .rnrImm d imm => 0x4340 + imm.toNat * 8 + d.toNat
  | .cmpReg m n => 0x4380 + n.toNat * 8 + m.toNat
  | .cmpImm m imm => 0x43C0 + imm.toNat * 8 + m.toNat
  | .addImm d imm => 0x4400 + imm.toNat * 8 + d.toNat
  | .adcImm d imm => 0x4500 + imm.toNat * 8 + d.toNat
  | .subImm d imm => 0x4600 + imm.toNat * 8 + d.toNat
  | .sbcImm d imm => 0x4700 + imm.toNat * 8 + d.toNat
  | .mov d m => 0x4800 + m.toNat * 8 + d.toNat
  | .neg d m => 0x4840 + m.toNat * 8 + d.toNat
  | .rexSb d => 0x4880 + d.toNat
  | .rexUb d => 0x4888 + d.toNat
  | .revB d => 0x48A0 + d.toNat
  | .revT d => 0x48A8 + d.toNat
  | .notReg d m => 0x48C0 + m.toNat * 8 + d.toNat
  | .andReg d m n => 0x4A00 + n.toNat * 64 + m.toNat * 8 + d.toNat
  | .orrReg d m n => 0x4C00 + n.toNat * 64 + m.toNat * 8 + d.toNat
  | .eorReg d m n => 0x4E00 + n.toNat * 64 + m.toNat * 8 + d.toNat
  | .stsLow mask => 0x5000 + mask.toNat
  | .stsHigh mask => 0x5010 + mask.toNat
  | .stsSpecial mask => 0x5020 + mask.toNat
  | .strLow mask => 0x5040 + mask.toNat
  | .strHigh mask => 0x5050 + mask.toNat
  | .strSpecial mask => 0x5060 + mask.toNat
  | .brk imm => 0x5080 + imm.toNat
  | .rts => 0x50C0
  | .rti => 0x50C1
  | .swi => 0x50C2
  | .slp => 0x50C3
  | .nop => 0x50C5
  | .sfv => 0x50C8
  | .cfv => 0x50C9
  | .sfc => 0x50CA
  | .cfc => 0x50CB
  | .sfz => 0x50CC
  | .cfz => 0x50CD
  | .sfn => 0x50CE
  | .cfn => 0x50CF
  | .mrs d idx => 0x5100 + idx.toNat * 8 + d.toNat
  | .msr d idx => 0x5200 + idx.toNat * 8 + d.toNat
  | .jmp m => 0x5300 + m.toNat
  | .jsr m => 0x5308 + m.toNat
  | .hwq imm => 0x5340 + imm.toNat
  | .ptlV p m => 0x5380 + m.toNat * 4 + p.toNat
  | .ptlI p m => 0x53A0 + m.toNat * 4 + p.toNat
  | .ptsV p m => 0x53C0 + m.toNat * 4 + p.toNat
  | .ptsI p m => 0x53E0 + m.toNat * 4 + p.toNat
  | .stx imm => 0x5400 + imm.toNat
  | .louB d m => 0x5600 + m.toNat * 8 + d.toNat
  | .lou d m => 0x5640 + m.toNat * 8 + d.toNat
  | .souB d m => 0x5700 + m.toNat * 8 + d.toNat
  | .sou d m => 0x5740 + m.toNat * 8 + d.toNat
  | .bvs imm => 0x6000 + imm.toNat
  | .bvc imm => 0x6200 + imm.toNat
  | .bcs imm => 0x6400 + imm.toNat
  | .bcc imm => 0x6600 + imm.toNat
  | .beq imm => 0x6800 + imm.toNat
  | .bne imm => 0x6A00 + imm.toNat
  | .bmi imm => 0x6C00 + imm.toNat
  | .bpl imm => 0x6E00 + imm.toNat
  | .bra imm => 0x7000 + imm.toNat

/-- The encoder's word is the table's. -/
def TableRow.Statement (i : Instr) : Prop := (encode i).toNat = tableNumber i

theorem TableRow.add (d : BitVec 3) (m : BitVec 3) (n : BitVec 3) : TableRow.Statement (.add d m n) := by
  revert d m n; unfold TableRow.Statement; decide +kernel
theorem TableRow.adc (d : BitVec 3) (m : BitVec 3) (n : BitVec 3) : TableRow.Statement (.adc d m n) := by
  revert d m n; unfold TableRow.Statement; decide +kernel
theorem TableRow.sub (d : BitVec 3) (m : BitVec 3) (n : BitVec 3) : TableRow.Statement (.sub d m n) := by
  revert d m n; unfold TableRow.Statement; decide +kernel
theorem TableRow.sbc (d : BitVec 3) (m : BitVec 3) (n : BitVec 3) : TableRow.Statement (.sbc d m n) := by
  revert d m n; unfold TableRow.Statement; decide +kernel
theorem TableRow.mul (p : BitVec 2) (m : BitVec 3) (n : BitVec 3) : TableRow.Statement (.mul p m n) := by
  revert p m n; unfold TableRow.Statement; decide +kernel
theorem TableRow.mli (p : BitVec 2) (m : BitVec 3) (n : BitVec 3) : TableRow.Statement (.mli p m n) := by
  revert p m n; unfold TableRow.Statement; decide +kernel
theorem TableRow.div (p : BitVec 2) (m : BitVec 3) (n : BitVec 3) : TableRow.Statement (.div p m n) := by
  revert p m n; unfold TableRow.Statement; decide +kernel
theorem TableRow.dvi (p : BitVec 2) (m : BitVec 3) (n : BitVec 3) : TableRow.Statement (.dvi p m n) := by
  revert p m n; unfold TableRow.Statement; decide +kernel
theorem TableRow.btt (d : BitVec 3) (imm : BitVec 4) : TableRow.Statement (.btt d imm) := by
  revert d imm; unfold TableRow.Statement; decide +kernel
theorem TableRow.bttM (d : BitVec 3) (imm : BitVec 4) : TableRow.Statement (.bttM d imm) := by
  revert d imm; unfold TableRow.Statement; decide +kernel
theorem TableRow.btx (d : BitVec 3) (imm : BitVec 4) : TableRow.Statement (.btx d imm) := by
  revert d imm; unfold TableRow.Statement; decide +kernel
theorem TableRow.btxM (d : BitVec 3) (imm : BitVec 4) : TableRow.Statement (.btxM d imm) := by
  revert d imm; unfold TableRow.Statement; decide +kernel
theorem TableRow.btc (d : BitVec 3) (imm : BitVec 4) : TableRow.Statement (.btc d imm) := by
  revert d imm; unfold TableRow.Statement; decide +kernel
theorem TableRow.btcM (d : BitVec 3) (imm : BitVec 4) : TableRow.Statement (.btcM d imm) := by
  revert d imm; unfold TableRow.Statement; decide +kernel
theorem TableRow.bts (d : BitVec 3) (imm : BitVec 4) : TableRow.Statement (.bts d imm) := by
  revert d imm; unfold TableRow.Statement; decide +kernel
theorem TableRow.btsM (d : BitVec 3) (imm : BitVec 4) : TableRow.Statement (.btsM d imm) := by
  revert d imm; unfold TableRow.Statement; decide +kernel
theorem TableRow.mviL (d : BitVec 3) (imm : BitVec 8) : TableRow.Statement (.mviL d imm) := by
  revert d imm; unfold TableRow.Statement; decide +kernel
theorem TableRow.mviH (d : BitVec 3) (imm : BitVec 8) : TableRow.Statement (.mviH d imm) := by
  revert d imm; unfold TableRow.Statement; decide +kernel
theorem TableRow.lodBReg (d : BitVec 3) (m : BitVec 3) (n : BitVec 3) : TableRow.Statement (.lodBReg d m n) := by
  revert d m n; unfold TableRow.Statement; decide +kernel
theorem TableRow.lodBImm (d : BitVec 3) (m : BitVec 3) (imm : BitVec 3) : TableRow.Statement (.lodBImm d m imm) := by
  revert d m imm; unfold TableRow.Statement; decide +kernel
theorem TableRow.lodReg (d : BitVec 3) (m : BitVec 3) (n : BitVec 3) : TableRow.Statement (.lodReg d m n) := by
  revert d m n; unfold TableRow.Statement; decide +kernel
theorem TableRow.lodImm (d : BitVec 3) (m : BitVec 3) (imm : BitVec 3) : TableRow.Statement (.lodImm d m imm) := by
  revert d m imm; unfold TableRow.Statement; decide +kernel
theorem TableRow.lodPc (d : BitVec 3) (imm : BitVec 6) : TableRow.Statement (.lodPc d imm) := by
  revert d imm; unfold TableRow.Statement; decide +kernel
theorem TableRow.lodSp (d : BitVec 3) (imm : BitVec 6) : TableRow.Statement (.lodSp d imm) := by
  revert d imm; unfold TableRow.Statement; decide +kernel
theorem TableRow.stoBReg (d : BitVec 3) (m : BitVec 3) (n : BitVec 3) : TableRow.Statement (.stoBReg d m n) := by
  revert d m n; unfold TableRow.Statement; decide +kernel
theorem TableRow.stoBImm (d : BitVec 3) (m : BitVec 3) (imm : BitVec 3) : TableRow.Statement (.stoBImm d m imm) := by
  revert d m imm; unfold TableRow.Statement; decide +kernel
theorem TableRow.stoReg (d : BitVec 3) (m : BitVec 3) (n : BitVec 3) : TableRow.Statement (.stoReg d m n) := by
  revert d m n; unfold TableRow.Statement; decide +kernel
theorem TableRow.stoImm (d : BitVec 3) (m : BitVec 3) (imm : BitVec 3) : TableRow.Statement (.stoImm d m imm) := by
  revert d m imm; unfold TableRow.Statement; decide +kernel
theorem TableRow.stoPc (d : BitVec 3) (imm : BitVec 6) : TableRow.Statement (.stoPc d imm) := by
  revert d imm; unfold TableRow.Statement; decide +kernel
theorem TableRow.stoSp (d : BitVec 3) (imm : BitVec 6) : TableRow.Statement (.stoSp d imm) := by
  revert d imm; unfold TableRow.Statement; decide +kernel
theorem TableRow.lslReg (d : BitVec 3) (m : BitVec 3) : TableRow.Statement (.lslReg d m) := by
  revert d m; unfold TableRow.Statement; decide +kernel
theorem TableRow.lslImm (d : BitVec 3) (imm : BitVec 3) : TableRow.Statement (.lslImm d imm) := by
  revert d imm; unfold TableRow.Statement; decide +kernel
theorem TableRow.rolReg (d : BitVec 3) (m : BitVec 3) : TableRow.Statement (.rolReg d m) := by
  revert d m; unfold TableRow.Statement; decide +kernel
theorem TableRow.rolImm (d : BitVec 3) (imm : BitVec 3) : TableRow.Statement (.rolImm d imm) := by
  revert d imm; unfold TableRow.Statement; decide +kernel
theorem TableRow.rnlReg (d : BitVec 3) (m : BitVec 3) : TableRow.Statement (.rnlReg d m) := by
  revert d m; unfold TableRow.Statement; decide +kernel
theorem TableRow.rnlImm (d : BitVec 3) (imm : BitVec 3) : TableRow.Statement (.rnlImm d imm) := by
  revert d imm; unfold TableRow.Statement; decide +kernel
theorem TableRow.asrReg (d : BitVec 3) (m : BitVec 3) : TableRow.Statement (.asrReg d m) := by
  revert d m; unfold TableRow.Statement; decide +kernel
theorem TableRow.asrImm (d : BitVec 3) (imm : BitVec 3) : TableRow.Statement (.asrImm d imm) := by
  revert d imm; unfold TableRow.Statement; decide +kernel
theorem TableRow.lsrReg (d : BitVec 3) (m : BitVec 3) : TableRow.Statement (.lsrReg d m) := by
  revert d m; unfold TableRow.Statement; decide +kernel
theorem TableRow.lsrImm (d : BitVec 3) (imm : BitVec 3) : TableRow.Statement (.lsrImm d imm) := by
  revert d imm; unfold TableRow.Statement; decide +kernel
theorem TableRow.rorReg (d : BitVec 3) (m : BitVec 3) : TableRow.Statement (.rorReg d m) := by
  revert d m; unfold TableRow.Statement; decide +kernel
theorem TableRow.rorImm (d : BitVec 3) (imm : BitVec 3) : TableRow.Statement (.rorImm d imm) := by
  revert d imm; unfold TableRow.Statement; decide +kernel
theorem TableRow.rnrReg (d : BitVec 3) (m : BitVec 3) : TableRow.Statement (.rnrReg d m) := by
  revert d m; unfold TableRow.Statement; decide +kernel
theorem TableRow.rnrImm (d : BitVec 3) (imm : BitVec 3) : TableRow.Statement (.rnrImm d imm) := by
  revert d imm; unfold TableRow.Statement; decide +kernel
theorem TableRow.cmpReg (m : BitVec 3) (n : BitVec 3) : TableRow.Statement (.cmpReg m n) := by
  revert m n; unfold TableRow.Statement; decide +kernel
theorem TableRow.cmpImm (m : BitVec 3) (imm : BitVec 3) : TableRow.Statement (.cmpImm m imm) := by
  revert m imm; unfold TableRow.Statement; decide +kernel
theorem TableRow.addImm (d : BitVec 3) (imm : BitVec 5) : TableRow.Statement (.addImm d imm) := by
  revert d imm; unfold TableRow.Statement; decide +kernel
theorem TableRow.adcImm (d : BitVec 3) (imm : BitVec 5) : TableRow.Statement (.adcImm d imm) := by
  revert d imm; unfold TableRow.Statement; decide +kernel
theorem TableRow.subImm (d : BitVec 3) (imm : BitVec 5) : TableRow.Statement (.subImm d imm) := by
  revert d imm; unfold TableRow.Statement; decide +kernel
theorem TableRow.sbcImm (d : BitVec 3) (imm : BitVec 5) : TableRow.Statement (.sbcImm d imm) := by
  revert d imm; unfold TableRow.Statement; decide +kernel
theorem TableRow.mov (d : BitVec 3) (m : BitVec 3) : TableRow.Statement (.mov d m) := by
  revert d m; unfold TableRow.Statement; decide +kernel
theorem TableRow.neg (d : BitVec 3) (m : BitVec 3) : TableRow.Statement (.neg d m) := by
  revert d m; unfold TableRow.Statement; decide +kernel
theorem TableRow.rexSb (d : BitVec 3) : TableRow.Statement (.rexSb d) := by
  revert d; unfold TableRow.Statement; decide +kernel
theorem TableRow.rexUb (d : BitVec 3) : TableRow.Statement (.rexUb d) := by
  revert d; unfold TableRow.Statement; decide +kernel
theorem TableRow.revB (d : BitVec 3) : TableRow.Statement (.revB d) := by
  revert d; unfold TableRow.Statement; decide +kernel
theorem TableRow.revT (d : BitVec 3) : TableRow.Statement (.revT d) := by
  revert d; unfold TableRow.Statement; decide +kernel
theorem TableRow.notReg (d : BitVec 3) (m : BitVec 3) : TableRow.Statement (.notReg d m) := by
  revert d m; unfold TableRow.Statement; decide +kernel
theorem TableRow.andReg (d : BitVec 3) (m : BitVec 3) (n : BitVec 3) : TableRow.Statement (.andReg d m n) := by
  revert d m n; unfold TableRow.Statement; decide +kernel
theorem TableRow.orrReg (d : BitVec 3) (m : BitVec 3) (n : BitVec 3) : TableRow.Statement (.orrReg d m n) := by
  revert d m n; unfold TableRow.Statement; decide +kernel
theorem TableRow.eorReg (d : BitVec 3) (m : BitVec 3) (n : BitVec 3) : TableRow.Statement (.eorReg d m n) := by
  revert d m n; unfold TableRow.Statement; decide +kernel
theorem TableRow.stsLow (mask : BitVec 4) : TableRow.Statement (.stsLow mask) := by
  revert mask; unfold TableRow.Statement; decide +kernel
theorem TableRow.stsHigh (mask : BitVec 4) : TableRow.Statement (.stsHigh mask) := by
  revert mask; unfold TableRow.Statement; decide +kernel
theorem TableRow.stsSpecial (mask : BitVec 4) : TableRow.Statement (.stsSpecial mask) := by
  revert mask; unfold TableRow.Statement; decide +kernel
theorem TableRow.strLow (mask : BitVec 4) : TableRow.Statement (.strLow mask) := by
  revert mask; unfold TableRow.Statement; decide +kernel
theorem TableRow.strHigh (mask : BitVec 4) : TableRow.Statement (.strHigh mask) := by
  revert mask; unfold TableRow.Statement; decide +kernel
theorem TableRow.strSpecial (mask : BitVec 4) : TableRow.Statement (.strSpecial mask) := by
  revert mask; unfold TableRow.Statement; decide +kernel
theorem TableRow.brk (imm : BitVec 6) : TableRow.Statement (.brk imm) := by
  revert imm; unfold TableRow.Statement; decide +kernel
theorem TableRow.rts : TableRow.Statement .rts := by
  unfold TableRow.Statement; decide +kernel
theorem TableRow.rti : TableRow.Statement .rti := by
  unfold TableRow.Statement; decide +kernel
theorem TableRow.swi : TableRow.Statement .swi := by
  unfold TableRow.Statement; decide +kernel
theorem TableRow.slp : TableRow.Statement .slp := by
  unfold TableRow.Statement; decide +kernel
theorem TableRow.nop : TableRow.Statement .nop := by
  unfold TableRow.Statement; decide +kernel
theorem TableRow.sfv : TableRow.Statement .sfv := by
  unfold TableRow.Statement; decide +kernel
theorem TableRow.cfv : TableRow.Statement .cfv := by
  unfold TableRow.Statement; decide +kernel
theorem TableRow.sfc : TableRow.Statement .sfc := by
  unfold TableRow.Statement; decide +kernel
theorem TableRow.cfc : TableRow.Statement .cfc := by
  unfold TableRow.Statement; decide +kernel
theorem TableRow.sfz : TableRow.Statement .sfz := by
  unfold TableRow.Statement; decide +kernel
theorem TableRow.cfz : TableRow.Statement .cfz := by
  unfold TableRow.Statement; decide +kernel
theorem TableRow.sfn : TableRow.Statement .sfn := by
  unfold TableRow.Statement; decide +kernel
theorem TableRow.cfn : TableRow.Statement .cfn := by
  unfold TableRow.Statement; decide +kernel
theorem TableRow.mrs (d : BitVec 3) (idx : BitVec 5) : TableRow.Statement (.mrs d idx) := by
  revert d idx; unfold TableRow.Statement; decide +kernel
theorem TableRow.msr (d : BitVec 3) (idx : BitVec 5) : TableRow.Statement (.msr d idx) := by
  revert d idx; unfold TableRow.Statement; decide +kernel
theorem TableRow.jmp (m : BitVec 3) : TableRow.Statement (.jmp m) := by
  revert m; unfold TableRow.Statement; decide +kernel
theorem TableRow.jsr (m : BitVec 3) : TableRow.Statement (.jsr m) := by
  revert m; unfold TableRow.Statement; decide +kernel
theorem TableRow.hwq (imm : BitVec 6) : TableRow.Statement (.hwq imm) := by
  revert imm; unfold TableRow.Statement; decide +kernel
theorem TableRow.ptlV (p : BitVec 2) (m : BitVec 3) : TableRow.Statement (.ptlV p m) := by
  revert p m; unfold TableRow.Statement; decide +kernel
theorem TableRow.ptlI (p : BitVec 2) (m : BitVec 3) : TableRow.Statement (.ptlI p m) := by
  revert p m; unfold TableRow.Statement; decide +kernel
theorem TableRow.ptsV (p : BitVec 2) (m : BitVec 3) : TableRow.Statement (.ptsV p m) := by
  revert p m; unfold TableRow.Statement; decide +kernel
theorem TableRow.ptsI (p : BitVec 2) (m : BitVec 3) : TableRow.Statement (.ptsI p m) := by
  revert p m; unfold TableRow.Statement; decide +kernel
theorem TableRow.stx (imm : BitVec 8) : TableRow.Statement (.stx imm) := by
  revert imm; unfold TableRow.Statement; decide +kernel
theorem TableRow.louB (d : BitVec 3) (m : BitVec 3) : TableRow.Statement (.louB d m) := by
  revert d m; unfold TableRow.Statement; decide +kernel
theorem TableRow.lou (d : BitVec 3) (m : BitVec 3) : TableRow.Statement (.lou d m) := by
  revert d m; unfold TableRow.Statement; decide +kernel
theorem TableRow.souB (d : BitVec 3) (m : BitVec 3) : TableRow.Statement (.souB d m) := by
  revert d m; unfold TableRow.Statement; decide +kernel
theorem TableRow.sou (d : BitVec 3) (m : BitVec 3) : TableRow.Statement (.sou d m) := by
  revert d m; unfold TableRow.Statement; decide +kernel
theorem TableRow.bvs (imm : BitVec 9) : TableRow.Statement (.bvs imm) := by
  revert imm; unfold TableRow.Statement; decide +kernel
theorem TableRow.bvc (imm : BitVec 9) : TableRow.Statement (.bvc imm) := by
  revert imm; unfold TableRow.Statement; decide +kernel
theorem TableRow.bcs (imm : BitVec 9) : TableRow.Statement (.bcs imm) := by
  revert imm; unfold TableRow.Statement; decide +kernel
theorem TableRow.bcc (imm : BitVec 9) : TableRow.Statement (.bcc imm) := by
  revert imm; unfold TableRow.Statement; decide +kernel
theorem TableRow.beq (imm : BitVec 9) : TableRow.Statement (.beq imm) := by
  revert imm; unfold TableRow.Statement; decide +kernel
theorem TableRow.bne (imm : BitVec 9) : TableRow.Statement (.bne imm) := by
  revert imm; unfold TableRow.Statement; decide +kernel
theorem TableRow.bmi (imm : BitVec 9) : TableRow.Statement (.bmi imm) := by
  revert imm; unfold TableRow.Statement; decide +kernel
theorem TableRow.bpl (imm : BitVec 9) : TableRow.Statement (.bpl imm) := by
  revert imm; unfold TableRow.Statement; decide +kernel
theorem TableRow.bra (imm : BitVec 12) : TableRow.Statement (.bra imm) := by
  revert imm; unfold TableRow.Statement; decide +kernel

end Sys2Proof.Laws
end

