-- ==== Sys2Proof/Tests/Slice0.lean ====
section
/-! SUPPORT. Tests: the well-formedness checks, the decoder on words written out bit by bit, single steps from the spec's
test vectors (95_test_vectors.md), and for every statement a state that meets its hypotheses. -/

set_option Elab.async false

namespace Sys2Proof.Tests

open Sys2Proof.Machine

/-! ## Well-formedness: a term for each check that the check refuses -/

theorem test_wf_empty_sts_low : (Instr.stsLow 0).wellFormed = false := by decide
theorem test_wf_empty_sts_high : (Instr.stsHigh 0).wellFormed = false := by decide
theorem test_wf_empty_sts_special : (Instr.stsSpecial 0).wellFormed = false := by decide
theorem test_wf_empty_str_low : (Instr.strLow 0).wellFormed = false := by decide
theorem test_wf_empty_str_high : (Instr.strHigh 0).wellFormed = false := by decide
theorem test_wf_empty_str_special : (Instr.strSpecial 0).wellFormed = false := by decide
theorem test_wf_mrs_index : (Instr.mrs 0 0x0D).wellFormed = false := by decide
theorem test_wf_msr_index : (Instr.msr 0 0x1F).wellFormed = false := by decide
theorem test_wf_mrs_odd : (Instr.mrs 1 0x08).wellFormed = false := by decide
theorem test_wf_msr_odd : (Instr.msr 3 0x0C).wellFormed = false := by decide
theorem test_wf_hwq : (Instr.hwq 0x04).wellFormed = false := by decide
theorem test_wf_accepts :
    (Instr.stsLow 1).wellFormed = true ∧ (Instr.mrs 1 0x07).wellFormed = true ∧ (Instr.msr 2 0x0C).wellFormed = true ∧
    (Instr.hwq 0x23).wellFormed = true ∧ (Instr.add 0 0 0).wellFormed = true := by decide

/-! ## Decoding, word by word from the formats of 30_encoding.md -/

theorem test_decode_math :
    decode 0b0000000_101_011_110#16 = .ok (.add 6 3 5) ∧
    decode 0b0000001_011_111_110#16 = .ok (.adc 6 7 3) ∧
    decode 0b0000010_111_110_110#16 = .ok (.sub 6 6 7) ∧
    decode 0b0000011_101_001_111#16 = .ok (.sbc 7 1 5) ∧
    decode 0b0000100_100_111_01_0#16 = .ok (.mul 1 7 4) ∧
    decode 0b0000100_110_001_01_1#16 = .ok (.mli 1 1 6) ∧
    decode 0b0000101_001_011_10_0#16 = .ok (.div 2 3 1) ∧
    decode 0b0000101_111_010_10_1#16 = .ok (.dvi 2 2 7) := by decide

theorem test_decode_bit_test :
    decode 0b000011000_1001_001#16 = .ok (.btt 1 9) ∧
    decode 0b000011001_1010_010#16 = .ok (.bttM 2 10) ∧
    decode 0b000011010_0001_110#16 = .ok (.btx 6 1) ∧
    decode 0b000011011_0100_100#16 = .ok (.btxM 4 4) ∧
    decode 0b000011100_0101_010#16 = .ok (.btc 2 5) ∧
    decode 0b000011101_1111_111#16 = .ok (.btcM 7 15) ∧
    decode 0b000011110_1101_100#16 = .ok (.bts 4 13) ∧
    decode 0b000011111_0011_111#16 = .ok (.btsM 7 3) := by decide

theorem test_decode_move_immediate :
    decode 0b00010_11001101_001#16 = .ok (.mviL 1 205) ∧
    decode 0b00011_00100100_101#16 = .ok (.mviH 5 36) := by decide

theorem test_decode_load_store :
    decode 0b0010000_101_100_010#16 = .ok (.lodBReg 2 4 5) ∧
    decode 0b0010001_010_001_111#16 = .ok (.lodBImm 7 1 2) ∧
    decode 0b0010010_001_010_111#16 = .ok (.lodReg 7 2 1) ∧
    decode 0b0010011_010_010_111#16 = .ok (.lodImm 7 2 2) ∧
    decode 0b0010110_001011_011#16 = .ok (.lodPc 3 11) ∧
    decode 0b0010111_010101_010#16 = .ok (.lodSp 2 21) ∧
    decode 0b0011000_101_110_110#16 = .ok (.stoBReg 6 6 5) ∧
    decode 0b0011001_010_010_110#16 = .ok (.stoBImm 6 2 2) ∧
    decode 0b0011010_010_100_011#16 = .ok (.stoReg 3 4 2) ∧
    decode 0b0011011_001_011_100#16 = .ok (.stoImm 4 3 1) ∧
    decode 0b0011110_001011_010#16 = .ok (.stoPc 2 11) ∧
    decode 0b0011111_010001_001#16 = .ok (.stoSp 1 17) := by decide

theorem test_decode_shift :
    decode 0b0100000000_011_011#16 = .ok (.lslReg 3 3) ∧
    decode 0b0100000001_111_101#16 = .ok (.lslImm 5 7) ∧
    decode 0b0100000010_101_001#16 = .ok (.rolReg 1 5) ∧
    decode 0b0100000011_101_110#16 = .ok (.rolImm 6 5) ∧
    decode 0b0100000100_110_011#16 = .ok (.rnlReg 3 6) ∧
    decode 0b0100000101_001_011#16 = .ok (.rnlImm 3 1) ∧
    decode 0b0100000110_011_111#16 = .ok (.asrReg 7 3) ∧
    decode 0b0100000111_011_100#16 = .ok (.asrImm 4 3) ∧
    decode 0b0100001000_110_011#16 = .ok (.lsrReg 3 6) ∧
    decode 0b0100001001_010_100#16 = .ok (.lsrImm 4 2) ∧
    decode 0b0100001010_100_110#16 = .ok (.rorReg 6 4) ∧
    decode 0b0100001011_010_001#16 = .ok (.rorImm 1 2) ∧
    decode 0b0100001100_011_001#16 = .ok (.rnrReg 1 3) ∧
    decode 0b0100001101_110_011#16 = .ok (.rnrImm 3 6) := by decide

theorem test_decode_compare_immediate :
    decode 0b0100001110_111_100#16 = .ok (.cmpReg 4 7) ∧
    decode 0b0100001111_001_101#16 = .ok (.cmpImm 5 1) ∧
    decode 0b01000100_11010_100#16 = .ok (.addImm 4 26) ∧
    decode 0b01000101_01100_100#16 = .ok (.adcImm 4 12) ∧
    decode 0b01000110_10011_111#16 = .ok (.subImm 7 19) ∧
    decode 0b01000111_00001_100#16 = .ok (.sbcImm 4 1) := by decide

theorem test_decode_move_and_unary :
    decode 0b0100100000_001_110#16 = .ok (.mov 6 1) ∧
    decode 0b0100100001_010_101#16 = .ok (.neg 5 2) ∧
    decode 0b0100100010000_010#16 = .ok (.rexSb 2) ∧
    decode 0b0100100010001_001#16 = .ok (.rexUb 1) ∧
    decode 0b0100100010100_111#16 = .ok (.revB 7) ∧
    decode 0b0100100010101_010#16 = .ok (.revT 2) ∧
    decode 0b0100100011_111_100#16 = .ok (.notReg 4 7) := by decide

theorem test_decode_logic :
    decode 0b0100101_011_101_011#16 = .ok (.andReg 3 5 3) ∧
    decode 0b0100110_101_011_111#16 = .ok (.orrReg 7 3 5) ∧
    decode 0b0100111_100_001_101#16 = .ok (.eorReg 5 1 4) := by decide

theorem test_decode_stack :
    decode 0b010100000000_1100#16 = .ok (.stsLow 12) ∧
    decode 0b010100000001_1101#16 = .ok (.stsHigh 13) ∧
    decode 0b010100000010_1101#16 = .ok (.stsSpecial 13) ∧
    decode 0b010100000100_0110#16 = .ok (.strLow 6) ∧
    decode 0b010100000101_1110#16 = .ok (.strHigh 14) ∧
    decode 0b010100000110_0101#16 = .ok (.strSpecial 5) := by decide

theorem test_decode_control :
    decode 0b0101000010_000011#16 = .ok (.brk 3) ∧
    decode 0b0101000011000000#16 = .ok .rts ∧
    decode 0b0101000011000001#16 = .ok .rti ∧
    decode 0b0101000011000010#16 = .ok .swi ∧
    decode 0b0101000011000011#16 = .ok .slp ∧
    decode 0b0101000011000101#16 = .ok .nop ∧
    decode 0b0101000011001000#16 = .ok .sfv ∧
    decode 0b0101000011001001#16 = .ok .cfv ∧
    decode 0b0101000011001010#16 = .ok .sfc ∧
    decode 0b0101000011001011#16 = .ok .cfc ∧
    decode 0b0101000011001100#16 = .ok .sfz ∧
    decode 0b0101000011001101#16 = .ok .cfz ∧
    decode 0b0101000011001110#16 = .ok .sfn ∧
    decode 0b0101000011001111#16 = .ok .cfn := by decide

theorem test_decode_special_and_jump :
    decode 0b01010001_01110_001#16 = .ok (.mrs 1 14) ∧
    decode 0b01010010_00111_011#16 = .ok (.msr 3 7) ∧
    decode 0b0101001100000_101#16 = .ok (.jmp 5) ∧
    decode 0b0101001100001_101#16 = .ok (.jsr 5) := by decide

theorem test_decode_query_and_table :
    decode 0b0101001101_011000#16 = .ok (.hwq 24) ∧
    decode 0b01010011100_010_10#16 = .ok (.ptlV 2 2) ∧
    decode 0b01010011101_011_11#16 = .ok (.ptlI 3 3) ∧
    decode 0b01010011110_101_01#16 = .ok (.ptsV 1 5) ∧
    decode 0b01010011111_011_11#16 = .ok (.ptsI 3 3) := by decide

theorem test_decode_adjust_and_user_access :
    decode 0b01010100_01010010#16 = .ok (.stx 82) ∧
    decode 0b0101011000_011_010#16 = .ok (.louB 2 3) ∧
    decode 0b0101011001_111_001#16 = .ok (.lou 1 7) ∧
    decode 0b0101011100_110_010#16 = .ok (.souB 2 6) ∧
    decode 0b0101011101_110_110#16 = .ok (.sou 6 6) := by decide

theorem test_decode_branch :
    decode 0b0110000_010011111#16 = .ok (.bvs 159) ∧
    decode 0b0110001_111111111#16 = .ok (.bvc 511) ∧
    decode 0b0110010_011111000#16 = .ok (.bcs 248) ∧
    decode 0b0110011_001010011#16 = .ok (.bcc 83) ∧
    decode 0b0110100_101110001#16 = .ok (.beq 369) ∧
    decode 0b0110101_000011001#16 = .ok (.bne 25) ∧
    decode 0b0110110_000101010#16 = .ok (.bmi 42) ∧
    decode 0b0110111_111111010#16 = .ok (.bpl 506) ∧
    decode 0b0111_100110011101#16 = .ok (.bra 2461) := by decide

/-- Nothing but the low 16 bits of a row is read, and a longer row is none of this machine's. -/
theorem test_decode_table_word :
    decodeTableWord 16 0x00D1 = some (.add 1 2 3) ∧ decodeTableWord 16 0x4900 = none ∧ decodeTableWord 24 0x00D1 = none :=
  by decide

/-! ## Test machines -/

/-- PS from a word of a test vector. -/
def psOf (w : Word) : Status := (Status.ofWord? w).getD State.reset.ps

/-- The vector table of the test vectors: the word at $FFE0 + 2*N is $C000 + $10*N. -/
def vectorTable : Memory :=
  [(0xFFE1, 0xC0), (0xFFE2, 0x10), (0xFFE3, 0xC0), (0xFFE4, 0x20), (0xFFE5, 0xC0), (0xFFE6, 0x30), (0xFFE7, 0xC0),
    (0xFFE8, 0x40), (0xFFE9, 0xC0), (0xFFEA, 0x50), (0xFFEB, 0xC0), (0xFFEC, 0x60), (0xFFED, 0xC0), (0xFFEE, 0x70),
    (0xFFEF, 0xC0), (0xFFF0, 0x80), (0xFFF1, 0xC0), (0xFFF2, 0x90), (0xFFF3, 0xC0), (0xFFF4, 0xA0), (0xFFF5, 0xC0),
    (0xFFF6, 0xB0), (0xFFF7, 0xC0)]

/-- 32 KiB of RAM, 16 KiB of ROM, RAM from $10000 to $3FFFF, and no device but the SBC. -/
def plainPlatform : Platform where
  lowRam := 0x8000
  lowRom := 0x4000
  highRam := [{ base := 0x10000, size := 0x30000 }]
  highRom := []
  ramBytes := none
  romBytes := none
  sbcInfo := default
  slots := []
  nvramBytes := none
  rtcPresent := false

/-- The start state of the test vectors (95_test_vectors.md part 2). -/
def vec : State :=
  { State.reset with platform := plainPlatform, rom := vectorTable, pc := 0x0100#16, ss := 0x7000#16, su := 0x6000#16 }

end Sys2Proof.Tests

namespace Sys2Proof.Machine

/-- A state with registers set. -/
def State.withRegs (s : State) (l : List (Reg × Word)) : State := l.foldl (fun t e => t.setReg e.1 e.2) s

/-- A state with words in memory, low byte first. -/
def State.withWords (s : State) (l : List (DWord × Word)) : State :=
  l.foldl (fun t e => (t.pokeByte e.1 (e.2.extractLsb' 0 8)).pokeByte (e.1 + 1#32) (e.2.extractLsb' 8 8)) s

end Sys2Proof.Machine

namespace Sys2Proof.Tests

open Sys2Proof.Machine

/-- The MMU set-up of 95_test_vectors.md 2.10, in user mode, with the page table entries its rows use. -/
def mapped : State :=
  { vec with ps := psOf 0x2000#16, ts := 0x00010000#32, tu := 0x00010040#32 }.withWords
    [(0x10000, 0x0007), (0x10004, 0x1007), (0x10018, 0x6007), (0x1003C, 0xF007), (0x10040, 0x0025), (0x10042, 0x0002)]

/-- The state after a step that has one. -/
def stepped (s : State) : Option State :=
  match step s with
  | .next t => some t
  | .fault _ => none
  | .refused _ => none

/-- What is seen after one step that fetches the word `w`. -/
def seen (s : State) (w : Nat) (looks : List (State → Nat)) : Option (List Nat) :=
  (stepped (s.withFetchWord 16 w)).map fun t => looks.map fun look => look t

namespace look

/-- A general register. -/
def reg (r : Reg) (t : State) : Nat := (t.reg r).toNat
/-- A word of physical memory. -/
def word (a : DWord) (t : State) : Nat := (t.wordAt a).toNat
/-- A 32-bit value of physical memory. -/
def dword (a : DWord) (t : State) : Nat := (t.dwordAt a).toNat
/-- NZCV. -/
def flags (t : State) : Nat := t.ps.toWord.toNat % 16
/-- PC. -/
def pc (t : State) : Nat := t.pc.toNat
/-- PS. -/
def ps (t : State) : Nat := t.ps.toWord.toNat
/-- SU. -/
def su (t : State) : Nat := t.su.toNat
/-- SS. -/
def ss (t : State) : Nat := t.ss.toNat
/-- VB. -/
def vb (t : State) : Nat := t.vb.toNat
/-- IC. -/
def ic (t : State) : Nat := t.ic.toNat
/-- FA. -/
def fa (t : State) : Nat := t.fa.toNat
/-- IM. -/
def im (t : State) : Nat := t.im.toWord.toNat
/-- TU. -/
def tu (t : State) : Nat := t.tu.toNat
/-- The sleep state. -/
def asleep (t : State) : Nat := t.asleep.toNat
/-- ResetPending. -/
def resetPending (t : State) : Nat := t.resetPending.toNat

end look

/-! ## One step, from the spec's test vectors: at most two for an instruction -/

-- 95_test_vectors.md 2.3, `ADD R1, R2, R3`
theorem test_add_a : seen (vec.withRegs [(2, 0x7FFF), (3, 0x0001)]) 0x00D1 [look.reg 1, look.flags, look.pc] = some
  [0x8000, 0b1001, 0x102] := by decide
-- 95_test_vectors.md 2.3, `ADD R0, R0, R0`
theorem test_add_b : seen (vec.withRegs [(0, 0x4000)]) 0x0000 [look.reg 0, look.flags, look.pc] = some [0x8000,
  0b1001, 0x102] := by decide
-- 95_test_vectors.md 2.3, `ADC R1, R2, R3`
theorem test_adc_a : seen ({ vec with ps := psOf 0x4002#16 }.withRegs [(2, 0xFFFF), (3, 0x0000)]) 0x02D1 [look.reg
  1, look.flags, look.pc] = some [0x0, 0b0110, 0x102] := by decide
-- 95_test_vectors.md 2.3, `ADC R1, R2, R3`
theorem test_adc_b : seen (vec.withRegs [(2, 0x0001), (3, 0x0002)]) 0x02D1 [look.reg 1, look.flags, look.pc] = some
  [0x3, 0b0000, 0x102] := by decide
-- 95_test_vectors.md 2.3, `SUB R1, R2, R3`
theorem test_sub_a : seen (vec.withRegs [(2, 0x0005), (3, 0x0007)]) 0x04D1 [look.reg 1, look.flags, look.pc] = some
  [0xFFFE, 0b1000, 0x102] := by decide
-- 95_test_vectors.md 2.3, `SUB R1, R2, R3`
theorem test_sub_b : seen (vec.withRegs [(2, 0x7FFF), (3, 0xFFFF)]) 0x04D1 [look.reg 1, look.flags, look.pc] = some
  [0x8000, 0b1001, 0x102] := by decide
-- 95_test_vectors.md 2.3, `SBC R1, R2, R3`
theorem test_sbc_a : seen (vec.withRegs [(2, 0x0005), (3, 0x0005)]) 0x06D1 [look.reg 1, look.flags, look.pc] = some
  [0xFFFF, 0b1000, 0x102] := by decide
-- 95_test_vectors.md 2.3, `SBC R1, R2, R3`
theorem test_sbc_b : seen (vec.withRegs [(2, 0x8000), (3, 0x7FFF)]) 0x06D1 [look.reg 1, look.flags, look.pc] = some
  [0x0, 0b0111, 0x102] := by decide
-- 95_test_vectors.md 2.3, `MUL R2, R4, R5`
theorem test_mul_a : seen ({ vec with ps := psOf 0x4009#16 }.withRegs [(4, 0xFFFF), (5, 0xFFFF)]) 0x0962 [look.reg
  2, look.reg 3, look.flags, look.pc] = some [0x1, 0xFFFE, 0b0011, 0x102] := by decide
-- 95_test_vectors.md 2.3, `MUL R4, R4, R5 (source in the pair)`
theorem test_mul_b : seen (vec.withRegs [(4, 0x0100), (5, 0x0100)]) 0x0964 [look.reg 4, look.reg 5, look.flags,
  look.pc] = some [0x0, 0x1, 0b0010, 0x102] := by decide
-- 95_test_vectors.md 2.3, `MLI R2, R4, R5`
theorem test_mli_a : seen (vec.withRegs [(4, 0xFFFE), (5, 0x0003)]) 0x0963 [look.reg 2, look.reg 3, look.flags,
  look.pc] = some [0xFFFA, 0xFFFF, 0b1010, 0x102] := by decide
-- 95_test_vectors.md 2.3, `MLI R2, R4, R5`
theorem test_mli_b : seen (vec.withRegs [(4, 0x7FFF), (5, 0x8000)]) 0x0963 [look.reg 2, look.reg 3, look.flags,
  look.pc] = some [0x8000, 0xC000, 0b1010, 0x102] := by decide
-- 95_test_vectors.md 2.3, `DIV R0, R2, R3`
theorem test_div_a : seen ({ vec with ps := psOf 0x400B#16 }.withRegs [(2, 0x0064), (3, 0x0007)]) 0x0AD0 [look.reg
  0, look.reg 1, look.flags, look.pc] = some [0xE, 0x2, 0b0011, 0x102] := by decide
-- 95_test_vectors.md 2.3, `DIV R0, R2, R3 (divide by zero)`
theorem test_div_b : seen ({ vec with ps := psOf 0x4006#16 }.withRegs [(0, 0x1111), (1, 0x2222), (2, 0x0064),
  (3, 0x0000)]) 0x0AD0 [look.word 0x6FFA, look.word 0x6FFC, look.word 0x6FFE, look.ic, look.ss, look.ps, look.flags,
  look.pc] = some [0x0, 0x4006, 0x102, 0x0, 0x6FFA, 0x4066, 0b0110, 0xC050] := by decide
-- 95_test_vectors.md 2.3, `DVI R0, R2, R3`
theorem test_dvi_a : seen ({ vec with ps := psOf 0x4002#16 }.withRegs [(2, 0xFFF9), (3, 0x0002)]) 0x0AD1 [look.reg
  0, look.reg 1, look.flags, look.pc] = some [0xFFFD, 0xFFFF, 0b1010, 0x102] := by decide
-- 95_test_vectors.md 2.3, `DVI R0, R2, R3 (overflow; R1 = any value)`
theorem test_dvi_b : seen (vec.withRegs [(2, 0x8000), (3, 0xFFFF), (1, 0x5A5A)]) 0x0AD1 [look.reg 0, look.flags,
  look.pc] = some [0x8000, 0b1001, 0x102] := by decide
-- 95_test_vectors.md 2.6, `BTT R2, #15`
theorem test_btt_a : seen ({ vec with ps := psOf 0x4006#16 }.withRegs [(2, 0x8000)]) 0x0C7A [look.flags, look.pc] =
  some [0b0010, 0x102] := by decide
-- 95_test_vectors.md 2.6, `BTT R2, #0`
theorem test_btt_b : seen (vec.withRegs [(2, 0x0001)]) 0x0C02 [look.flags, look.pc] = some [0b0000, 0x102] := by
  decide
-- 95_test_vectors.md 2.6, `BTT.M R2, #3`
theorem test_bttM_a : seen (({ vec with ps := psOf 0x4004#16 }.withRegs [(2, 0x2000)]).withWords [(0x2000, 0x0008)])
  0x0C9A [look.flags, look.pc] = some [0b0000, 0x102] := by decide
-- 95_test_vectors.md 2.6, `BTT.M R2, #3`
theorem test_bttM_b : seen ((vec.withRegs [(2, 0x2000)]).withWords [(0x2000, 0xFFF7)]) 0x0C9A [look.flags, look.pc]
  = some [0b0100, 0x102] := by decide
-- 95_test_vectors.md 2.6, `BTX R2, #0`
theorem test_btx_a : seen (vec.withRegs [(2, 0x0000)]) 0x0D02 [look.reg 2, look.flags, look.pc] = some [0x1, 0b0110,
  0x102] := by decide
-- 95_test_vectors.md 2.6, `BTX R2, #15`
theorem test_btx_b : seen (vec.withRegs [(2, 0x7FFF)]) 0x0D7A [look.reg 2, look.flags, look.pc] = some [0xFFFF,
  0b0110, 0x102] := by decide
-- 95_test_vectors.md 2.6, `BTX.M R2, #3`
theorem test_btxM_a : seen ((vec.withRegs [(2, 0x2000)]).withWords [(0x2000, 0x0008)]) 0x0D9A [look.word 0x2000,
  look.flags, look.pc] = some [0x0, 0b0000, 0x102] := by decide
-- 95_test_vectors.md 2.6, `BTX.M R2, #3`
theorem test_btxM_b : seen ((vec.withRegs [(2, 0x2000)]).withWords [(0x2000, 0x0000)]) 0x0D9A [look.word 0x2000,
  look.flags, look.pc] = some [0x8, 0b0110, 0x102] := by decide
-- 95_test_vectors.md 2.6, `BTC R2, #15`
theorem test_btc_a : seen (vec.withRegs [(2, 0xFFFF)]) 0x0E7A [look.reg 2, look.flags, look.pc] = some [0x7FFF,
  0b0010, 0x102] := by decide
-- 95_test_vectors.md 2.6, `BTC R2, #15`
theorem test_btc_b : seen ({ vec with ps := psOf 0x4002#16 }.withRegs [(2, 0x7FFF)]) 0x0E7A [look.reg 2, look.flags,
  look.pc] = some [0x7FFF, 0b0100, 0x102] := by decide
-- 95_test_vectors.md 2.6, `BTC.M R5, #7`
theorem test_btcM_a : seen ((vec.withRegs [(5, 0x3000)]).withWords [(0x3000, 0x00FF)]) 0x0EBD [look.word 0x3000,
  look.flags, look.pc] = some [0x7F, 0b0010, 0x102] := by decide
-- 95_test_vectors.md 2.6, `BTC.M R5, #7`
theorem test_btcM_b : seen (({ vec with ps := psOf 0x4002#16 }.withRegs [(5, 0x3000)]).withWords [(0x3000, 0x007F)])
  0x0EBD [look.word 0x3000, look.flags, look.pc] = some [0x7F, 0b0100, 0x102] := by decide
-- 95_test_vectors.md 2.6, `BTS R2, #0`
theorem test_bts_a : seen (vec.withRegs [(2, 0x0000)]) 0x0F02 [look.reg 2, look.flags, look.pc] = some [0x1, 0b0110,
  0x102] := by decide
-- 95_test_vectors.md 2.6, `BTS R2, #8`
theorem test_bts_b : seen (vec.withRegs [(2, 0x00FF)]) 0x0F42 [look.reg 2, look.flags, look.pc] = some [0x1FF,
  0b0110, 0x102] := by decide
-- 95_test_vectors.md 2.6, `BTS.M R5, #7`
theorem test_btsM_a : seen ((vec.withRegs [(5, 0x3000)]).withWords [(0x3000, 0x0000)]) 0x0FBD [look.word 0x3000,
  look.flags, look.pc] = some [0x80, 0b0110, 0x102] := by decide
-- 95_test_vectors.md 2.6, `BTS.M R5, #7`
theorem test_btsM_b : seen (({ vec with ps := psOf 0x4006#16 }.withRegs [(5, 0x3000)]).withWords [(0x3000, 0x0080)])
  0x0FBD [look.word 0x3000, look.flags, look.pc] = some [0x80, 0b0000, 0x102] := by decide
-- 95_test_vectors.md 2.2, `MVI.L R1, #$34`
theorem test_mviL_a : seen ({ vec with ps := psOf 0x400F#16 }.withRegs [(1, 0xFFFF)]) 0x11A1 [look.reg 1,
  look.flags, look.pc] = some [0xFF34, 0b1111, 0x102] := by decide
-- 95_test_vectors.md 2.2, `MVI.L R0, #$00`
theorem test_mviL_b : seen (vec.withRegs [(0, 0xABCD)]) 0x1000 [look.reg 0, look.flags, look.pc] = some [0xAB00,
  0b0000, 0x102] := by decide
-- 95_test_vectors.md 2.2, `MVI.H R1, #$12`
theorem test_mviH_a : seen (vec.withRegs [(1, 0xFF34)]) 0x1891 [look.reg 1, look.flags, look.pc] = some [0x1234,
  0b0000, 0x102] := by decide
-- 95_test_vectors.md 2.2, `MVI.H R7, #$FF`
theorem test_mviH_b : seen (vec.withRegs [(7, 0x0000)]) 0x1FFF [look.reg 7, look.flags, look.pc] = some [0xFF00,
  0b0000, 0x102] := by decide
-- 95_test_vectors.md 2.1, `LOD.B R0, R1, R2`
theorem test_lodBReg : seen (({ vec with ps := psOf 0x4008#16 }.withRegs [(0, 0xFFFF), (1, 0x3000),
  (2, 0x0001)]).withWords [(0x3000, 0xABCD)]) 0x2088 [look.reg 0, look.flags, look.pc] = some [0xAB, 0b0000, 0x102] :=
  by decide
-- 95_test_vectors.md 2.1, `LOD.B R0, R1, #0`
theorem test_lodBImm_a : seen ((vec.withRegs [(1, 0x3000)]).withWords [(0x3000, 0xABCD)]) 0x2208 [look.reg 0,
  look.flags, look.pc] = some [0xCD, 0b0000, 0x102] := by decide
-- 95_test_vectors.md 2.1, `LOD.B R0, R1, #5`
theorem test_lodBImm_b : seen ((vec.withRegs [(0, 0x1234), (1, 0x3000)]).withWords [(0x3004, 0x00FF)]) 0x2348
  [look.reg 0, look.flags, look.pc] = some [0x0, 0b0100, 0x102] := by decide
-- 95_test_vectors.md 2.1, `LOD R1, R2, R3`
theorem test_lodReg_a : seen ((vec.withRegs [(2, 0x1000), (3, 0x0004)]).withWords [(0x1004, 0x8001)]) 0x24D1
  [look.reg 1, look.flags, look.pc] = some [0x8001, 0b1000, 0x102] := by decide
-- 95_test_vectors.md 2.1, `LOD R1, R1, R1`
theorem test_lodReg_b : seen ((vec.withRegs [(1, 0x0800)]).withWords [(0x1000, 0x1234)]) 0x2449 [look.reg 1,
  look.flags, look.pc] = some [0x1234, 0b0000, 0x102] := by decide
-- 95_test_vectors.md 2.1, `LOD R1, R2, #3`
theorem test_lodImm_a : seen ((vec.withRegs [(2, 0x2000)]).withWords [(0x2006, 0x7FFF)]) 0x26D1 [look.reg 1,
  look.flags, look.pc] = some [0x7FFF, 0b0000, 0x102] := by decide
-- 95_test_vectors.md 2.1, `LOD R1, R2, #7`
theorem test_lodImm_b : seen ((vec.withRegs [(2, 0xFFF8)]).withWords [(0x6, 0x00AA)]) 0x27D1 [look.reg 1,
  look.flags, look.pc] = some [0xAA, 0b0000, 0x102] := by decide
-- 95_test_vectors.md 2.1, `LOD R3, PC, #-2`
theorem test_lodPc_a : seen (vec.withWords [(0xFE, 0x1234)]) 0x2DF3 [look.reg 3, look.flags, look.pc] = some
  [0x1234, 0b0000, 0x102] := by decide
-- 95_test_vectors.md 2.1, `LOD R3, PC, #-32`
theorem test_lodPc_b : seen (vec.withWords [(0xC2, 0x0001)]) 0x2D03 [look.reg 3, look.flags, look.pc] = some [0x1,
  0b0000, 0x102] := by decide
-- 95_test_vectors.md 2.1, `LOD R3, SP, #1`
theorem test_lodSp_a : seen ({ vec with ss := 0x7FF0#16 }.withWords [(0x7FF2, 0x00FF)]) 0x2E0B [look.reg 3,
  look.flags, look.pc] = some [0xFF, 0b0000, 0x102] := by decide
-- 95_test_vectors.md 2.1, `LOD R3, SP, #0`
theorem test_lodSp_b : seen ({ vec with su := 0x6000#16, ss := 0x7000#16, ps := psOf 0x0000#16 }.withWords
  [(0x6000, 0x1111), (0x7000, 0x2222)]) 0x2E03 [look.reg 3, look.flags, look.pc] = some [0x1111, 0b0000, 0x102] := by
  decide
-- 95_test_vectors.md 2.1, `STO.B R0, R1, R2`
theorem test_stoBReg : seen ((vec.withRegs [(0, 0x12CD), (1, 0x3000), (2, 0x0001)]).withWords [(0x3000, 0xAAAA)])
  0x3088 [look.word 0x3000, look.flags, look.pc] = some [0xCDAA, 0b0000, 0x102] := by decide
-- 95_test_vectors.md 2.1, `STO.B R0, R1, #4`
theorem test_stoBImm : seen ((vec.withRegs [(0, 0x12CD), (1, 0x3000)]).withWords [(0x3004, 0xAAAA)]) 0x3308
  [look.word 0x3004, look.flags, look.pc] = some [0xAACD, 0b0000, 0x102] := by decide
-- 95_test_vectors.md 2.1, `STO R1, R2, R3`
theorem test_stoReg : seen ({ vec with ps := psOf 0x400F#16 }.withRegs [(1, 0xBEEF), (2, 0x1000), (3, 0x0004)])
  0x34D1 [look.word 0x1004, look.flags, look.pc] = some [0xBEEF, 0b1111, 0x102] := by decide
-- 95_test_vectors.md 2.1, `STO R1, R2, #3`
theorem test_stoImm_a : seen (vec.withRegs [(1, 0x1234), (2, 0x2000)]) 0x36D1 [look.word 0x2006, look.flags,
  look.pc] = some [0x1234, 0b0000, 0x102] := by decide
-- 95_test_vectors.md 2.1, `STO R1, R2, #0 (write to ROM)`
theorem test_stoImm_b : seen (vec.withRegs [(1, 0x1234), (2, 0xC000)]) 0x3611 [look.flags, look.pc] = some [0b0000,
  0x102] := by decide
-- 95_test_vectors.md 2.1, `STO R3, PC, #4`
theorem test_stoPc : seen ({ vec with pc := 0x0200#16 }.withRegs [(3, 0x50C5)]) 0x3C23 [look.word 0x20A, look.flags,
  look.pc] = some [0x50C5, 0b0000, 0x202] := by decide
-- 95_test_vectors.md 2.1, `STO R3, SP, #-1`
theorem test_stoSp : seen ({ vec with su := 0x4000#16, ps := psOf 0x0000#16 }.withRegs [(3, 0x0077)]) 0x3FFB
  [look.word 0x3FFE, look.flags, look.pc] = some [0x77, 0b0000, 0x102] := by decide
-- 95_test_vectors.md 2.5, `LSL R1, R2`
theorem test_lslReg_a : seen ({ vec with ps := psOf 0x4002#16 }.withRegs [(1, 0x1234), (2, 0x0000)]) 0x4011
  [look.reg 1, look.flags, look.pc] = some [0x1234, 0b0000, 0x102] := by decide
-- 95_test_vectors.md 2.5, `LSL R1, R1 (count and operand the same register)`
theorem test_lslReg_b : seen (vec.withRegs [(1, 0x0003)]) 0x4009 [look.reg 1, look.flags, look.pc] = some [0x18,
  0b0000, 0x102] := by decide
-- 95_test_vectors.md 2.5, `LSL R1, #1`
theorem test_lslImm_a : seen (vec.withRegs [(1, 0x8001)]) 0x4041 [look.reg 1, look.flags, look.pc] = some [0x2,
  0b0010, 0x102] := by decide
-- 95_test_vectors.md 2.5, `LSL R1, #2 (C = OR of bits out)`
theorem test_lslImm_b : seen (vec.withRegs [(1, 0x8000)]) 0x4049 [look.reg 1, look.flags, look.pc] = some [0x0,
  0b0110, 0x102] := by decide
-- 95_test_vectors.md 2.5, `ROL R1, R2`
theorem test_rolReg_a : seen (vec.withRegs [(1, 0x1234), (2, 0x0000)]) 0x4091 [look.reg 1, look.flags, look.pc] =
  some [0x1234, 0b0000, 0x102] := by decide
-- 95_test_vectors.md 2.5, `ROL R1, R2`
theorem test_rolReg_b : seen (vec.withRegs [(1, 0xFFFF), (2, 0x000F)]) 0x4091 [look.reg 1, look.flags, look.pc] =
  some [0xBFFF, 0b1010, 0x102] := by decide
-- 95_test_vectors.md 2.5, `ROL R1, #1`
theorem test_rolImm_a : seen (vec.withRegs [(1, 0x8000)]) 0x40C1 [look.reg 1, look.flags, look.pc] = some [0x0,
  0b0110, 0x102] := by decide
-- 95_test_vectors.md 2.5, `ROL R1, #8`
theorem test_rolImm_b : seen ({ vec with ps := psOf 0x4002#16 }.withRegs [(1, 0x8001)]) 0x40F9 [look.reg 1,
  look.flags, look.pc] = some [0x1C0, 0b0000, 0x102] := by decide
-- 95_test_vectors.md 2.5, `RNL R1, R2`
theorem test_rnlReg_a : seen (vec.withRegs [(1, 0x1234), (2, 0x000F)]) 0x4111 [look.reg 1, look.flags, look.pc] =
  some [0x91A, 0b0000, 0x102] := by decide
-- 95_test_vectors.md 2.5, `RNL R1, R2`
theorem test_rnlReg_b : seen (vec.withRegs [(1, 0x0000), (2, 0x0003)]) 0x4111 [look.reg 1, look.flags, look.pc] =
  some [0x0, 0b0100, 0x102] := by decide
-- 95_test_vectors.md 2.5, `RNL R1, #1`
theorem test_rnlImm_a : seen ({ vec with ps := psOf 0x4003#16 }.withRegs [(1, 0x8001)]) 0x4141 [look.reg 1,
  look.flags, look.pc] = some [0x3, 0b0011, 0x102] := by decide
-- 95_test_vectors.md 2.5, `RNL R1, #8`
theorem test_rnlImm_b : seen (vec.withRegs [(1, 0x1234)]) 0x4179 [look.reg 1, look.flags, look.pc] = some [0x3412,
  0b0000, 0x102] := by decide
-- 95_test_vectors.md 2.5, `ASR R1, R2`
theorem test_asrReg_a : seen (vec.withRegs [(1, 0x7FFF), (2, 0x000F)]) 0x4191 [look.reg 1, look.flags, look.pc] =
  some [0x0, 0b0110, 0x102] := by decide
-- 95_test_vectors.md 2.5, `ASR R1, R2`
theorem test_asrReg_b : seen ({ vec with ps := psOf 0x4003#16 }.withRegs [(1, 0x8000), (2, 0x0000)]) 0x4191
  [look.reg 1, look.flags, look.pc] = some [0x8000, 0b1000, 0x102] := by decide
-- 95_test_vectors.md 2.5, `ASR R1, #1`
theorem test_asrImm_a : seen (vec.withRegs [(1, 0x8001)]) 0x41C1 [look.reg 1, look.flags, look.pc] = some [0xC000,
  0b1010, 0x102] := by decide
-- 95_test_vectors.md 2.5, `ASR R1, #4`
theorem test_asrImm_b : seen ({ vec with ps := psOf 0x4001#16 }.withRegs [(1, 0xFFFF)]) 0x41D9 [look.reg 1,
  look.flags, look.pc] = some [0xFFFF, 0b1010, 0x102] := by decide
-- 95_test_vectors.md 2.5, `LSR R1, R2`
theorem test_lsrReg_a : seen (vec.withRegs [(1, 0x8000), (2, 0x000F)]) 0x4211 [look.reg 1, look.flags, look.pc] =
  some [0x1, 0b0000, 0x102] := by decide
-- 95_test_vectors.md 2.5, `LSR R1, R2`
theorem test_lsrReg_b : seen ({ vec with ps := psOf 0x4002#16 }.withRegs [(1, 0x8000), (2, 0x0000)]) 0x4211
  [look.reg 1, look.flags, look.pc] = some [0x8000, 0b1000, 0x102] := by decide
-- 95_test_vectors.md 2.5, `LSR R1, #1`
theorem test_lsrImm_a : seen (vec.withRegs [(1, 0x8001)]) 0x4241 [look.reg 1, look.flags, look.pc] = some [0x4000,
  0b0010, 0x102] := by decide
-- 95_test_vectors.md 2.5, `LSR R1, #1`
theorem test_lsrImm_b : seen (vec.withRegs [(1, 0x0001)]) 0x4241 [look.reg 1, look.flags, look.pc] = some [0x0,
  0b0110, 0x102] := by decide
-- 95_test_vectors.md 2.5, `ROR R1, R2`
theorem test_rorReg_a : seen ({ vec with ps := psOf 0x4002#16 }.withRegs [(1, 0x1234), (2, 0x0000)]) 0x4291
  [look.reg 1, look.flags, look.pc] = some [0x1234, 0b0010, 0x102] := by decide
-- 95_test_vectors.md 2.5, `ROR R1, R2`
theorem test_rorReg_b : seen ({ vec with ps := psOf 0x4002#16 }.withRegs [(1, 0x0001), (2, 0x0064)]) 0x4291
  [look.reg 1, look.flags, look.pc] = some [0x6, 0b0000, 0x102] := by decide
-- 95_test_vectors.md 2.5, `ROR R1, #1`
theorem test_rorImm_a : seen (vec.withRegs [(1, 0x0001)]) 0x42C1 [look.reg 1, look.flags, look.pc] = some [0x0,
  0b0110, 0x102] := by decide
-- 95_test_vectors.md 2.5, `ROR R1, #8`
theorem test_rorImm_b : seen (vec.withRegs [(1, 0x8001)]) 0x42F9 [look.reg 1, look.flags, look.pc] = some [0x280,
  0b0000, 0x102] := by decide
-- 95_test_vectors.md 2.5, `RNR R1, R2`
theorem test_rnrReg_a : seen (vec.withRegs [(1, 0x1234), (2, 0x000F)]) 0x4311 [look.reg 1, look.flags, look.pc] =
  some [0x2468, 0b0000, 0x102] := by decide
-- 95_test_vectors.md 2.5, `RNR R1, R2`
theorem test_rnrReg_b : seen (vec.withRegs [(1, 0x8000), (2, 0x0000)]) 0x4311 [look.reg 1, look.flags, look.pc] =
  some [0x8000, 0b1000, 0x102] := by decide
-- 95_test_vectors.md 2.5, `RNR R1, #1`
theorem test_rnrImm_a : seen (vec.withRegs [(1, 0x8001)]) 0x4341 [look.reg 1, look.flags, look.pc] = some [0xC000,
  0b1000, 0x102] := by decide
-- 95_test_vectors.md 2.5, `RNR R1, #4`
theorem test_rnrImm_b : seen (vec.withRegs [(1, 0x1234)]) 0x4359 [look.reg 1, look.flags, look.pc] = some [0x4123,
  0b0000, 0x102] := by decide
-- 95_test_vectors.md 2.4, `CMP R2, R3`
theorem test_cmpReg_a : seen ({ vec with ps := psOf 0x4001#16 }.withRegs [(2, 0x0005), (3, 0x0007)]) 0x439A
  [look.flags, look.pc] = some [0b1001, 0x102] := by decide
-- 95_test_vectors.md 2.4, `CMP R2, R3`
theorem test_cmpReg_b : seen (vec.withRegs [(2, 0x0000), (3, 0xFFFF)]) 0x439A [look.flags, look.pc] = some [0b0000,
  0x102] := by decide
-- 95_test_vectors.md 2.4, `CMP R2, #0`
theorem test_cmpImm_a : seen (vec.withRegs [(2, 0x0000)]) 0x43C2 [look.flags, look.pc] = some [0b0110, 0x102] := by
  decide
-- 95_test_vectors.md 2.4, `CMP R2, #7`
theorem test_cmpImm_b : seen (vec.withRegs [(2, 0xFFFF)]) 0x43FA [look.flags, look.pc] = some [0b1010, 0x102] := by
  decide
-- 95_test_vectors.md 2.3, `ADD R4, #1`
theorem test_addImm_a : seen (vec.withRegs [(4, 0xFFFF)]) 0x4404 [look.reg 4, look.flags, look.pc] = some [0x0,
  0b0110, 0x102] := by decide
-- 95_test_vectors.md 2.3, `ADD R4, #32`
theorem test_addImm_b : seen (vec.withRegs [(4, 0xFFE0)]) 0x44FC [look.reg 4, look.flags, look.pc] = some [0x0,
  0b0110, 0x102] := by decide
-- 95_test_vectors.md 2.3, `ADC R4, #16`
theorem test_adcImm_a : seen ({ vec with ps := psOf 0x4002#16 }.withRegs [(4, 0xFFEF)]) 0x457C [look.reg 4,
  look.flags, look.pc] = some [0x0, 0b0110, 0x102] := by decide
-- 95_test_vectors.md 2.3, `ADC R4, #1`
theorem test_adcImm_b : seen ({ vec with ps := psOf 0x4002#16 }.withRegs [(4, 0x7FFE)]) 0x4504 [look.reg 4,
  look.flags, look.pc] = some [0x8000, 0b1001, 0x102] := by decide
-- 95_test_vectors.md 2.3, `SUB R4, #1`
theorem test_subImm_a : seen (vec.withRegs [(4, 0x0000)]) 0x4604 [look.reg 4, look.flags, look.pc] = some [0xFFFF,
  0b1000, 0x102] := by decide
-- 95_test_vectors.md 2.3, `SUB R4, #32`
theorem test_subImm_b : seen (vec.withRegs [(4, 0x0020)]) 0x46FC [look.reg 4, look.flags, look.pc] = some [0x0,
  0b0110, 0x102] := by decide
-- 95_test_vectors.md 2.3, `SBC R4, #32`
theorem test_sbcImm_a : seen (vec.withRegs [(4, 0x0020)]) 0x47FC [look.reg 4, look.flags, look.pc] = some [0xFFFF,
  0b1000, 0x102] := by decide
-- 95_test_vectors.md 2.3, `SBC R4, #1`
theorem test_sbcImm_b : seen ({ vec with ps := psOf 0x4002#16 }.withRegs [(4, 0x8000)]) 0x4704 [look.reg 4,
  look.flags, look.pc] = some [0x7FFF, 0b0011, 0x102] := by decide
-- 95_test_vectors.md 2.2, `MOV R1, R2`
theorem test_mov_a : seen ({ vec with ps := psOf 0x4004#16 }.withRegs [(2, 0x8000)]) 0x4811 [look.reg 1, look.flags,
  look.pc] = some [0x8000, 0b0100, 0x102] := by decide
-- 95_test_vectors.md 2.2, `MOV R7, R7`
theorem test_mov_b : seen (vec.withRegs [(7, 0x1234)]) 0x483F [look.reg 7, look.flags, look.pc] = some [0x1234,
  0b0000, 0x102] := by decide
-- 95_test_vectors.md 2.4, `NEG R1, R2`
theorem test_neg_a : seen ({ vec with ps := psOf 0x4002#16 }.withRegs [(2, 0x0001)]) 0x4851 [look.reg 1, look.flags,
  look.pc] = some [0xFFFF, 0b1010, 0x102] := by decide
-- 95_test_vectors.md 2.4, `NEG R1, R2`
theorem test_neg_b : seen (vec.withRegs [(2, 0xFFFF)]) 0x4851 [look.reg 1, look.flags, look.pc] = some [0x1, 0b0000,
  0x102] := by decide
-- 95_test_vectors.md 2.2, `REX.SB R1`
theorem test_rexSb_a : seen (vec.withRegs [(1, 0x1280)]) 0x4881 [look.reg 1, look.flags, look.pc] = some [0xFF80,
  0b0000, 0x102] := by decide
-- 95_test_vectors.md 2.2, `REX.SB R1`
theorem test_rexSb_b : seen (vec.withRegs [(1, 0xFF7F)]) 0x4881 [look.reg 1, look.flags, look.pc] = some [0x7F,
  0b0000, 0x102] := by decide
-- 95_test_vectors.md 2.2, `REX.UB R1`
theorem test_rexUb : seen ({ vec with ps := psOf 0x4008#16 }.withRegs [(1, 0xFF80)]) 0x4889 [look.reg 1, look.flags,
  look.pc] = some [0x80, 0b1000, 0x102] := by decide
-- 95_test_vectors.md 2.2, `REV.B R1`
theorem test_revB : seen (vec.withRegs [(1, 0x1234)]) 0x48A1 [look.reg 1, look.flags, look.pc] = some [0x3412,
  0b0000, 0x102] := by decide
-- 95_test_vectors.md 2.2, `REV.T R1`
theorem test_revT_a : seen (vec.withRegs [(1, 0x8001)]) 0x48A9 [look.reg 1, look.flags, look.pc] = some [0x8001,
  0b0000, 0x102] := by decide
-- 95_test_vectors.md 2.2, `REV.T R1`
theorem test_revT_b : seen (vec.withRegs [(1, 0x1234)]) 0x48A9 [look.reg 1, look.flags, look.pc] = some [0x2C48,
  0b0000, 0x102] := by decide
-- 95_test_vectors.md 2.4, `NOT R1, R2`
theorem test_notReg_a : seen ({ vec with ps := psOf 0x4003#16 }.withRegs [(2, 0x00FF)]) 0x48D1 [look.reg 1,
  look.flags, look.pc] = some [0xFF00, 0b1011, 0x102] := by decide
-- 95_test_vectors.md 2.4, `NOT R1, R2`
theorem test_notReg_b : seen (vec.withRegs [(2, 0xFFFF)]) 0x48D1 [look.reg 1, look.flags, look.pc] = some [0x0,
  0b0100, 0x102] := by decide
-- 95_test_vectors.md 2.4, `AND R1, R2, R3`
theorem test_andReg_a : seen ({ vec with ps := psOf 0x4003#16 }.withRegs [(2, 0xFF00), (3, 0x0FF0)]) 0x4AD1
  [look.reg 1, look.flags, look.pc] = some [0xF00, 0b0011, 0x102] := by decide
-- 95_test_vectors.md 2.4, `AND R1, R2, R3`
theorem test_andReg_b : seen (vec.withRegs [(2, 0x8000), (3, 0xFFFF)]) 0x4AD1 [look.reg 1, look.flags, look.pc] =
  some [0x8000, 0b1000, 0x102] := by decide
-- 95_test_vectors.md 2.4, `ORR R1, R2, R3`
theorem test_orrReg_a : seen (vec.withRegs [(2, 0x8000), (3, 0x0001)]) 0x4CD1 [look.reg 1, look.flags, look.pc] =
  some [0x8001, 0b1000, 0x102] := by decide
-- 95_test_vectors.md 2.4, `ORR R1, R2, R3`
theorem test_orrReg_b : seen (vec.withRegs [(2, 0x0000), (3, 0x0000), (1, 0xFFFF)]) 0x4CD1 [look.reg 1, look.flags,
  look.pc] = some [0x0, 0b0100, 0x102] := by decide
-- 95_test_vectors.md 2.4, `EOR R1, R2, R3`
theorem test_eorReg_a : seen (vec.withRegs [(2, 0xFFFF), (3, 0x00FF)]) 0x4ED1 [look.reg 1, look.flags, look.pc] =
  some [0xFF00, 0b1000, 0x102] := by decide
-- 95_test_vectors.md 2.4, `EOR R0, R0, R0`
theorem test_eorReg_b : seen ({ vec with ps := psOf 0x4008#16 }.withRegs [(0, 0x1234)]) 0x4E00 [look.reg 0,
  look.flags, look.pc] = some [0x0, 0b0100, 0x102] := by decide
-- 95_test_vectors.md 2.7, `STS (R0, R1, R2, R3)`
theorem test_stsLow_a : seen ({ vec with ss := 0x1000#16 }.withRegs [(0, 0x1110), (1, 0x1111), (2, 0x1112),
  (3, 0x1113)]) 0x500F [look.word 0xFF8, look.word 0xFFA, look.word 0xFFC, look.word 0xFFE, look.ss, look.flags,
  look.pc] = some [0x1113, 0x1112, 0x1111, 0x1110, 0xFF8, 0b0000, 0x102] := by decide
-- 95_test_vectors.md 2.7, `STS () group 0 (empty mask)`
theorem test_stsLow_b : seen ({ vec with ss := 0x1001#16 }) 0x5000 [look.flags, look.pc] = some [0b0000, 0x102] :=
  by decide
-- 95_test_vectors.md 2.7, `STS (R5, R7)`
theorem test_stsHigh : seen ({ vec with ss := 0x1000#16 }.withRegs [(5, 0x5555), (7, 0x7777)]) 0x501A [look.word
  0xFFC, look.word 0xFFE, look.ss, look.flags, look.pc] = some [0x7777, 0x5555, 0xFFC, 0b0000, 0x102] := by decide
-- 95_test_vectors.md 2.7, `STS (PC, PS, SU, SS) (supervisor)`
theorem test_stsSpecial_a : seen ({ vec with ss := 0x2000#16, su := 0x8000#16, ps := psOf 0x4002#16 }) 0x502F
  [look.word 0x1FF8, look.word 0x1FFA, look.word 0x1FFC, look.word 0x1FFE, look.ss, look.flags, look.pc] = some
  [0x2000, 0x8000, 0x4002, 0x102, 0x1FF8, 0b0010, 0x102] := by decide
-- 95_test_vectors.md 2.7, `STS (PS) (user, PS.I = 1 hidden)`
theorem test_stsSpecial_b : seen ({ vec with su := 0x8000#16, ps := psOf 0x1005#16 }) 0x5022 [look.word 0x7FFE,
  look.su, look.flags, look.pc] = some [0x5, 0x7FFE, 0b0101, 0x102] := by decide
-- 95_test_vectors.md 2.7, `STR (R0, R1, R2, R3)`
theorem test_strLow : seen ({ vec with ss := 0x0FF8#16 }.withWords [(0xFF8, 0x1113), (0xFFA, 0x1112),
  (0xFFC, 0x1111), (0xFFE, 0x1110)]) 0x504F [look.reg 0, look.reg 1, look.reg 2, look.reg 3, look.ss, look.pc] = some
  [0x1110, 0x1111, 0x1112, 0x1113, 0x1000, 0x102] := by decide
-- 95_test_vectors.md 2.7, `STR (R5, R7)`
theorem test_strHigh_a : seen ({ vec with ss := 0x0FFC#16 }.withWords [(0xFFC, 0x7777), (0xFFE, 0x5555)]) 0x505A
  [look.reg 5, look.reg 7, look.ss, look.pc] = some [0x5555, 0x7777, 0x1000, 0x102] := by decide
-- 95_test_vectors.md 2.7, `STR (R7) (the manual's wrap example: SP = $0000)`
theorem test_strHigh_b : seen ({ vec with ss := 0x0000#16 }.withWords [(0x0, 0x4321)]) 0x5058 [look.reg 7, look.ss,
  look.pc] = some [0x4321, 0x2, 0x102] := by decide
-- 95_test_vectors.md 2.7, `STR (PC, PS, SU, SS) (supervisor)`
theorem test_strSpecial_a : seen ({ vec with ss := 0x1FF8#16 }.withWords [(0x1FF8, 0x2000), (0x1FFA, 0x8000),
  (0x1FFC, 0x4002), (0x1FFE, 0x0102)]) 0x506F [look.su, look.ss, look.flags, look.pc] = some [0x8000, 0x2000, 0b0010,
  0x102] := by decide
-- 95_test_vectors.md 2.7, `STR (SU) (supervisor)`
theorem test_strSpecial_b : seen ({ vec with ss := 0x0FFE#16 }.withWords [(0xFFE, 0x9000)]) 0x5064 [look.su,
  look.ss, look.flags, look.pc] = some [0x9000, 0x1000, 0b0000, 0x102] := by decide
-- 95_test_vectors.md 2.9, `BRK #5 (supervisor)`
theorem test_brk_a : seen vec 0x5085 [look.word 0x6FFA, look.word 0x6FFC, look.word 0x6FFE, look.ic, look.ss,
  look.ps, look.pc] = some [0x0, 0x4000, 0x102, 0x14, 0x6FFA, 0x4040, 0xC0A0] := by decide
-- 95_test_vectors.md 2.9, `BRK #5 (user)`
theorem test_brk_b : seen ({ vec with ps := psOf 0x0000#16 }) 0x5085 [look.word 0x6FFA, look.word 0x6FFC, look.word
  0x6FFE, look.ic, look.ss, look.ps, look.pc] = some [0x0, 0x0, 0x102, 0x15, 0x6FFA, 0x4040, 0xC0A0] := by decide
-- 95_test_vectors.md 2.8, `RTS`
theorem test_rts : seen ({ vec with ss := 0x0FFE#16, pc := 0x4010#16 }.withWords [(0xFFE, 0x0102)]) 0x50C0 [look.ss,
  look.pc] = some [0x1000, 0x102] := by decide
-- 95_test_vectors.md 2.9, `RTI`
theorem test_rti_a : seen ({ vec with ss := 0x1FFA#16 }.withWords [(0x1FFA, 0x0001), (0x1FFC, 0x300A),
  (0x1FFE, 0x0456)]) 0x50C1 [look.ss, look.ic, look.ps, look.flags, look.pc] = some [0x2000, 0x1, 0x300A, 0b1010,
  0x456] := by decide
-- 95_test_vectors.md 2.9, `RTI (user)`
theorem test_rti_b : seen ({ vec with ss := 0x1FFA#16, ps := psOf 0x0000#16 }) 0x50C1 [look.word 0x1FF4, look.word
  0x1FF6, look.word 0x1FF8, look.ic, look.ss, look.ps, look.pc] = some [0x0, 0x0, 0x102, 0x1, 0x1FF4, 0x4060, 0xC020]
  := by decide
-- 95_test_vectors.md 2.9, `SWI (supervisor, level 0)`
theorem test_swi_a : seen ({ vec with ps := psOf 0x4002#16 }) 0x50C2 [look.word 0x6FFA, look.word 0x6FFC, look.word
  0x6FFE, look.ic, look.ss, look.ps, look.pc] = some [0x0, 0x4002, 0x102, 0x0, 0x6FFA, 0x4032, 0xC090] := by decide
-- 95_test_vectors.md 2.9, `SWI (user, PS.I = 1)`
theorem test_swi_b : seen ({ vec with ps := psOf 0x1000#16 }) 0x50C2 [look.word 0x6FFA, look.word 0x6FFC, look.word
  0x6FFE, look.ic, look.ss, look.ps, look.pc] = some [0x0, 0x1000, 0x102, 0x1, 0x6FFA, 0x5030, 0xC090] := by decide
-- 95_test_vectors.md 2.9, `SLP (supervisor)`
theorem test_slp_a : seen vec 0x50C3 [look.asleep, look.pc] = some [1, 0x102] := by decide
-- 95_test_vectors.md 2.9, `SLP (user)`
theorem test_slp_b : seen ({ vec with ps := psOf 0x0000#16 }) 0x50C3 [look.word 0x6FFA, look.word 0x6FFC, look.word
  0x6FFE, look.ic, look.ss, look.ps, look.pc] = some [0x0, 0x0, 0x102, 0x1, 0x6FFA, 0x4060, 0xC020] := by decide
-- 95_test_vectors.md 2.9, `NOP`
theorem test_nop : seen ({ vec with ps := psOf 0x400F#16 }) 0x50C5 [look.pc] = some [0x102] := by decide
-- 95_test_vectors.md 2.9, `SFV`
theorem test_sfv : seen vec 0x50C8 [look.flags, look.pc] = some [0b0001, 0x102] := by decide
-- 95_test_vectors.md 2.9, `CFV`
theorem test_cfv : seen ({ vec with ps := psOf 0x400F#16 }) 0x50C9 [look.flags, look.pc] = some [0b1110, 0x102] :=
  by decide
-- 95_test_vectors.md 2.9, `SFC`
theorem test_sfc : seen vec 0x50CA [look.flags, look.pc] = some [0b0010, 0x102] := by decide
-- 95_test_vectors.md 2.9, `CFC`
theorem test_cfc : seen ({ vec with ps := psOf 0x400F#16 }) 0x50CB [look.flags, look.pc] = some [0b1101, 0x102] :=
  by decide
-- 95_test_vectors.md 2.9, `SFZ`
theorem test_sfz : seen vec 0x50CC [look.flags, look.pc] = some [0b0100, 0x102] := by decide
-- 95_test_vectors.md 2.9, `CFZ`
theorem test_cfz : seen ({ vec with ps := psOf 0x400F#16 }) 0x50CD [look.flags, look.pc] = some [0b1011, 0x102] :=
  by decide
-- 95_test_vectors.md 2.9, `SFN`
theorem test_sfn : seen vec 0x50CE [look.flags, look.pc] = some [0b1000, 0x102] := by decide
-- 95_test_vectors.md 2.9, `CFN`
theorem test_cfn : seen ({ vec with ps := psOf 0x400F#16 }) 0x50CF [look.flags, look.pc] = some [0b0111, 0x102] :=
  by decide
-- 95_test_vectors.md 2.9, `MRS R0, PS (supervisor)`
theorem test_mrs_a : seen ({ vec with ps := psOf 0x5012#16 }) 0x5108 [look.reg 0, look.pc] = some [0x5012, 0x102] :=
  by decide
-- 95_test_vectors.md 2.9, `MRS R1, SS (user)`
theorem test_mrs_b : seen ({ vec with ps := psOf 0x0000#16 }) 0x5119 [look.word 0x6FFA, look.word 0x6FFC, look.word
  0x6FFE, look.ic, look.ss, look.ps, look.pc] = some [0x0, 0x0, 0x102, 0x1, 0x6FFA, 0x4060, 0xC020] := by decide
-- 95_test_vectors.md 2.9, `MSR PS, R0 (supervisor)`
theorem test_msr_a : seen (vec.withRegs [(0, 0x7FF5)]) 0x5208 [look.ps, look.flags, look.pc] = some [0x7075, 0b0101,
  0x102] := by decide
-- 95_test_vectors.md 2.9, `MSR SS, R5 (user)`
theorem test_msr_b : seen ({ vec with ps := psOf 0x0000#16 }.withRegs [(5, 0x1234)]) 0x521D [look.word 0x6FFA,
  look.word 0x6FFC, look.word 0x6FFE, look.ic, look.ss, look.ps, look.pc] = some [0x0, 0x0, 0x102, 0x1, 0x6FFA,
  0x4060, 0xC020] := by decide
-- 95_test_vectors.md 2.8, `JMP R3`
theorem test_jmp_a : seen (vec.withRegs [(3, 0x4000)]) 0x5303 [look.pc] = some [0x4000] := by decide
-- 95_test_vectors.md 2.8, `JMP R3 (odd target)`
theorem test_jmp_b : seen (vec.withRegs [(3, 0x4001)]) 0x5303 [look.pc] = some [0x4001] := by decide
-- 95_test_vectors.md 2.8, `JSR R3`
theorem test_jsr_a : seen ({ vec with ss := 0x1000#16 }.withRegs [(3, 0x4000)]) 0x530B [look.word 0xFFE, look.ss,
  look.pc] = some [0x102, 0xFFE, 0x4000] := by decide
-- 95_test_vectors.md 2.8, `JSR R3 (user stack)`
theorem test_jsr_b : seen ({ vec with su := 0x6000#16, ss := 0x7000#16, ps := psOf 0x0000#16 }.withRegs
  [(3, 0x4000)]) 0x530B [look.word 0x5FFE, look.su, look.pc] = some [0x102, 0x5FFE, 0x4000] := by decide
-- 95_test_vectors.md 2.9, `HWQ #$04 (supervisor, undefined index)`
theorem test_hwq_a : seen vec 0x5344 [look.word 0x6FFA, look.word 0x6FFC, look.word 0x6FFE, look.ic, look.ss,
  look.ps, look.pc] = some [0x0, 0x4000, 0x102, 0x0, 0x6FFA, 0x4060, 0xC030] := by decide
-- 95_test_vectors.md 2.9, `HWQ #$04 (user)`
theorem test_hwq_b : seen ({ vec with ps := psOf 0x0000#16 }) 0x5344 [look.word 0x6FFA, look.word 0x6FFC, look.word
  0x6FFE, look.ic, look.ss, look.ps, look.pc] = some [0x0, 0x0, 0x102, 0x1, 0x6FFA, 0x4060, 0xC020] := by decide
-- 95_test_vectors.md 2.9, `PTL.V R0, R1`
theorem test_ptlV : seen (({ vec with tu := 0x00014000#32 }.withRegs [(1, 0x3ABC)]).withWords [(0x1400C, 0x0007),
  (0x1400E, 0x0002)]) 0x5384 [look.reg 0, look.reg 1, look.pc] = some [0x7, 0x2, 0x102] := by decide
-- 95_test_vectors.md 2.9, `PTL.I R2, R3`
theorem test_ptlI_a : seen (({ vec with tu := 0x00014000#32 }.withRegs [(3, 0x0003)]).withWords [(0x1400C, 0x0007),
  (0x1400E, 0x0002)]) 0x53AD [look.reg 2, look.reg 3, look.pc] = some [0x7, 0x2, 0x102] := by decide
-- 95_test_vectors.md 2.9, `PTL.I R2, R3 (index 16)`
theorem test_ptlI_b : seen ({ vec with tu := 0x00014000#32 }.withRegs [(3, 0x0010)]) 0x53AD [look.word 0x6FFA,
  look.word 0x6FFC, look.word 0x6FFE, look.ic, look.ss, look.fa, look.ps, look.pc] = some [0x0, 0x4000, 0x102, 0x0,
  0x6FFA, 0x10, 0x4060, 0xC040] := by decide
-- 95_test_vectors.md 2.9, `PTS.V R4, R5`
theorem test_ptsV : seen ({ vec with tu := 0x00014000#32 }.withRegs [(4, 0x0037), (5, 0xF000)]) 0x53D6 [look.word
  0x1403C, look.word 0x1403E, look.pc] = some [0x37, 0xF000, 0x102] := by decide
-- 95_test_vectors.md 2.9, `PTS.I R6, R1`
theorem test_ptsI_a : seen ({ vec with tu := 0x00014000#32 }.withRegs [(6, 0x0027), (7, 0x0005), (1, 0x0002)])
  0x53E7 [look.word 0x14008, look.word 0x1400A, look.pc] = some [0x27, 0x5, 0x102] := by decide
-- 95_test_vectors.md 2.9, `PTS.I R6, R1 (TU.s = 01)`
theorem test_ptsI_b : seen ({ vec with tu := 0x00014001#32 }.withRegs [(6, 0x0027), (7, 0x0005), (1, 0x0002)])
  0x53E7 [look.word 0x6FFA, look.word 0x6FFC, look.word 0x6FFE, look.ic, look.ss, look.fa, look.ps, look.pc] = some
  [0x0, 0x4000, 0x102, 0x20, 0x6FFA, 0x2, 0x4060, 0xC040] := by decide
-- 95_test_vectors.md 2.7, `STX #-2`
theorem test_stx_a : seen ({ vec with ss := 0x1000#16 }) 0x54FE [look.ss, look.pc] = some [0xFFC, 0x102] := by
  decide
-- 95_test_vectors.md 2.7, `STX #-1 (user mode moves SU only)`
theorem test_stx_b : seen ({ vec with su := 0x6000#16, ss := 0x7000#16, ps := psOf 0x0000#16 }) 0x54FF [look.su,
  look.pc] = some [0x5FFE, 0x102] := by decide
-- 95_test_vectors.md 2.1, `LOU.B R1, R2`
theorem test_louB : seen ((vec.withRegs [(2, 0x1001)]).withWords [(0x1000, 0x8042)]) 0x5611 [look.reg 1, look.flags,
  look.pc] = some [0x80, 0b0000, 0x102] := by decide
-- 95_test_vectors.md 2.1, `LOU R1, R2 (supervisor, MMU off)`
theorem test_lou : seen ((vec.withRegs [(2, 0x1000)]).withWords [(0x1000, 0x8042)]) 0x5651 [look.reg 1, look.flags,
  look.pc] = some [0x8042, 0b1000, 0x102] := by decide
-- 95_test_vectors.md 2.1, `SOU.B R1, R2`
theorem test_souB : seen ((vec.withRegs [(1, 0xCAFE), (2, 0x1001)]).withWords [(0x1000, 0x1111)]) 0x5711 [look.word
  0x1000, look.flags, look.pc] = some [0xFE11, 0b0000, 0x102] := by decide
-- 95_test_vectors.md 2.1, `SOU R1, R2`
theorem test_sou : seen (vec.withRegs [(1, 0xCAFE), (2, 0x1000)]) 0x5751 [look.word 0x1000, look.flags, look.pc] =
  some [0xCAFE, 0b0000, 0x102] := by decide
-- 95_test_vectors.md 2.8, `BVS #3`
theorem test_bvs_a : seen ({ vec with pc := 0x0200#16, ps := psOf 0x4001#16 }) 0x6003 [look.pc] = some [0x208] := by
  decide
-- 95_test_vectors.md 2.8, `BVS #3`
theorem test_bvs_b : seen ({ vec with pc := 0x0200#16, ps := psOf 0x400E#16 }) 0x6003 [look.pc] = some [0x202] := by
  decide
-- 95_test_vectors.md 2.8, `BVC #-2`
theorem test_bvc : seen ({ vec with pc := 0x0200#16 }) 0x63FE [look.pc] = some [0x1FE] := by decide
-- 95_test_vectors.md 2.8, `BCS #255`
theorem test_bcs : seen ({ vec with pc := 0x0200#16, ps := psOf 0x4002#16 }) 0x64FF [look.pc] = some [0x400] := by
  decide
-- 95_test_vectors.md 2.8, `BCC #-256`
theorem test_bcc_a : seen ({ vec with pc := 0x0200#16 }) 0x6700 [look.pc] = some [0x2] := by decide
-- 95_test_vectors.md 2.8, `BCC #-256`
theorem test_bcc_b : seen ({ vec with pc := 0x0200#16, ps := psOf 0x4002#16 }) 0x6700 [look.pc] = some [0x202] := by
  decide
-- 95_test_vectors.md 2.8, `BEQ #3`
theorem test_beq : seen ({ vec with pc := 0x0200#16, ps := psOf 0x4004#16 }) 0x6803 [look.pc] = some [0x208] := by
  decide
-- 95_test_vectors.md 2.8, `BNE #-2`
theorem test_bne_a : seen ({ vec with pc := 0x0200#16 }) 0x6BFE [look.pc] = some [0x1FE] := by decide
-- 95_test_vectors.md 2.8, `BNE #-2`
theorem test_bne_b : seen ({ vec with pc := 0x0200#16, ps := psOf 0x4004#16 }) 0x6BFE [look.pc] = some [0x202] := by
  decide
-- 95_test_vectors.md 2.8, `BMI #0`
theorem test_bmi_a : seen ({ vec with pc := 0x0200#16, ps := psOf 0x4008#16 }) 0x6C00 [look.pc] = some [0x202] := by
  decide
-- 95_test_vectors.md 2.8, `BMI #5`
theorem test_bmi_b : seen ({ vec with pc := 0x0200#16, ps := psOf 0x4008#16 }) 0x6C05 [look.pc] = some [0x20C] := by
  decide
-- 95_test_vectors.md 2.8, `BPL #-1 (branches to itself)`
theorem test_bpl_a : seen ({ vec with pc := 0x0200#16 }) 0x6FFF [look.pc] = some [0x200] := by decide
-- 95_test_vectors.md 2.8, `BPL #4`
theorem test_bpl_b : seen ({ vec with pc := 0x0200#16, ps := psOf 0x4008#16 }) 0x6E04 [look.pc] = some [0x202] := by
  decide
-- 95_test_vectors.md 2.8, `BRA #5`
theorem test_bra_a : seen ({ vec with pc := 0x0200#16 }) 0x7005 [look.pc] = some [0x20C] := by decide
-- 95_test_vectors.md 2.8, `BRA #-3 (wraps)`
theorem test_bra_b : seen ({ vec with pc := 0x0002#16 }) 0x7FFD [look.pc] = some [0xFFFE] := by decide

/-! ## Translation, exceptions and interrupts, from 95_test_vectors.md 2.10 -/

-- 95_test_vectors.md 2.10.1, `LOD R1, R2, #0`
theorem test_user_load_sets_accessed : seen ((mapped.withRegs [(2, 0x1004)]).withWords [(0x21004, 0xBEEF),
  (0x10044, 0x1023), (0x10046, 0x0002)]) 0x2611 [look.dword 0x10040, look.dword 0x10044, look.reg 1, look.flags,
  look.pc] = some [0x20035, 0x21033, 0xBEEF, 0b1000, 0x102] := by decide
-- 95_test_vectors.md 2.10.1, `STO R1, R2, #0`
theorem test_user_store_sets_dirty : seen ((mapped.withRegs [(1, 0x1234), (2, 0x1004)]).withWords
  [(0x10044, 0x1023), (0x10046, 0x0002)]) 0x3611 [look.word 0x21004, look.dword 0x10040, look.dword 0x10044, look.pc]
  = some [0x1234, 0x20035, 0x2103B, 0x102] := by decide
-- 95_test_vectors.md 2.10.1, `STO R1, R2, #0`
theorem test_user_store_not_present : seen ((mapped.withRegs [(2, 0x1004)]).withWords [(0x10044, 0x1022),
  (0x10046, 0x0002)]) 0x3611 [look.word 0x6FFA, look.word 0x6FFC, look.word 0x6FFE, look.dword 0x10018, look.dword
  0x1003C, look.dword 0x10040, look.ic, look.ss, look.fa, look.ps, look.pc] = some [0x0, 0x2000, 0x102, 0x601F,
  0xF017, 0x20035, 0x7, 0x6FFA, 0x1004, 0x6060, 0xC040] := by decide
-- 95_test_vectors.md 2.10.1, `STS R0, R1`
theorem test_user_stash_faults_midway : seen (({ mapped with su := 0x2002#16 }.withRegs [(0, 0xAAAA),
  (1, 0xBBBB)]).withWords [(0x10048, 0x2023), (0x1004A, 0x0002), (0x10044, 0x1021), (0x10046, 0x0002)]) 0x5003
  [look.word 0x22000, look.word 0x6FFA, look.word 0x6FFC, look.word 0x6FFE, look.dword 0x10018, look.dword 0x1003C,
  look.dword 0x10040, look.dword 0x10048, look.ic, look.ss, look.fa, look.ps, look.pc] = some [0xAAAA, 0x0, 0x2000,
  0x102, 0x601F, 0xF017, 0x20035, 0x2203B, 0x5, 0x6FFA, 0x1FFE, 0x6060, 0xC040] := by decide
-- 95_test_vectors.md 2.10.2, `LOD R1, R2, #0`
theorem test_supervisor_load_mapped : seen (({ mapped with ps := psOf 0x6000#16 }.withRegs [(2, 0x1004)]).withWords
  [(0x31004, 0x0042), (0x10004, 0x1001), (0x10006, 0x0003)]) 0x2611 [look.dword 0x10000, look.dword 0x10004, look.reg
  1, look.flags, look.pc] = some [0x17, 0x31011, 0x42, 0b0000, 0x102] := by decide
-- 95_test_vectors.md 2.10.3, `SOU R1, R2`
theorem test_sou_mapped : seen (({ mapped with ps := psOf 0x6000#16 }.withRegs [(1, 0xCAFE), (2, 0x1004)]).withWords
  [(0x10044, 0x1023), (0x10046, 0x0002)]) 0x5751 [look.word 0x21004, look.dword 0x10000, look.dword 0x10044, look.pc]
  = some [0xCAFE, 0x17, 0x2103B, 0x102] := by decide
-- 95_test_vectors.md 2.10.3, `LOU R1, R2`
theorem test_lou_without_u_bit : seen (({ mapped with ps := psOf 0x6000#16 }.withRegs [(2, 0x1004)]).withWords
  [(0x10044, 0x1003), (0x10046, 0x0002)]) 0x5651 [look.word 0x6FFA, look.word 0x6FFC, look.word 0x6FFE, look.dword
  0x10000, look.dword 0x10018, look.dword 0x1003C, look.ic, look.ss, look.fa, look.ps, look.pc] = some [0x0, 0x6000,
  0x102, 0x17, 0x601F, 0xF017, 0x10, 0x6FFA, 0x1004, 0x6060, 0xC040] := by decide
-- 95_test_vectors.md 2.10.4, `LOD R0, R1, #0`
theorem test_double_fault : seen ({ vec with ic := 0x0000#16, ss := 0x6FFA#16, ps := psOf 0x4060#16 }.withRegs
  [(1, 0x2001)]) 0x2608 [look.word 0x6FF4, look.word 0x6FF6, look.word 0x6FF8, look.ic, look.ss, look.ps, look.pc] =
  some [0x0, 0x4060, 0x102, 0x0, 0x6FF4, 0x4070, 0xC070] := by decide
-- 95_test_vectors.md 2.10.4, `LOD R0, R1, #0`
theorem test_triple_fault : seen ({ vec with ps := psOf 0x4070#16 }.withRegs [(1, 0x2001)]) 0x2608
  [look.resetPending] = some [1] := by decide
-- 95_test_vectors.md 2.10.4, `(reserved word)`
theorem test_reserved_word_user : seen ({ vec with ps := psOf 0x0000#16 }) 0x8000 [look.word 0x6FFA, look.word
  0x6FFC, look.word 0x6FFE, look.ic, look.ss, look.ps, look.pc] = some [0x0, 0x0, 0x102, 0x1, 0x6FFA, 0x4060, 0xC030]
  := by decide
-- 95_test_vectors.md 2.10.5, `NOP`
theorem test_timer_taken : seen
  ({ vec with im := IntMask.ofWord 0x0003#16, cc := 0x00000FF0#32, cl := 0x00001000#32, ps := psOf 0x5000#16 }) 0x50C5
  [look.word 0x6FFA, look.word 0x6FFC, look.word 0x6FFE, look.ic, look.ss, look.im, look.ps, look.pc] = some [0x0,
  0x5000, 0x100, 0x0, 0x6FFA, 0x2, 0x5020, 0xC010] := by decide
-- 95_test_vectors.md 2.10.5, `NOP`
theorem test_timer_in_user_mode : seen
  ({ vec with im := IntMask.ofWord 0x0001#16, cc := 0x00000010#32, cl := 0xFFFFFFFF#32, ps := psOf 0x1005#16 }) 0x50C5
  [look.word 0x6FFA, look.word 0x6FFC, look.word 0x6FFE, look.ic, look.ss, look.im, look.ps, look.pc] = some [0x0,
  0x1005, 0x100, 0x0, 0x6FFA, 0x0, 0x5025, 0xC010] := by decide
-- 95_test_vectors.md 2.10.5, `NOP`
theorem test_debug_query : seen ({ vec with debugLatch := true, ps := psOf 0x0000#16 }) 0x50C5 [look.word 0x6FFA,
  look.word 0x6FFC, look.word 0x6FFE, look.ic, look.ss, look.ps, look.pc] = some [0x0, 0x0, 0x100, 0x0, 0x6FFA,
  0x4050, 0xC0B0] := by decide

/-- 95_test_vectors.md 2.10.5: the device of slot 0 requests. -/
theorem test_hwi_taken :
    seen
      { vec with
        ps := psOf 0x5000#16
        im := IntMask.ofWord 2#16
        sbc := { vec.sbc with irq := [(0, true)], configs := [(0, 1#4)] } }
      0x50C5 [look.ic, look.word 0x6FFE, look.ps, look.pc] = some [0, 0x100, 0x5010, 0xC080] := by decide

/-- A program word placed for the host runs as the first instruction after reset (ADD R0, #5). -/
theorem test_first_instruction :
    (stepped (State.reset.withFetchWord 16 0x4420)).map (fun t => (t.reg 0, t.pc)) = some (5#16, 2#16) := by decide

/-- The same on a platform with no memory in the low 64 KiB, at the last word R113 gives to RAM and the first it gives to
ROM. -/
theorem test_first_instruction_small :
    let small := { vec with platform := { plainPlatform with lowRam := 0, lowRom := 0 } }
    (stepped ({ small with pc := 0x7FFE#16 }.withFetchWord 16 0x4420)).map (fun t => (t.reg 0, t.pc)) =
      some (5#16, 0x8000#16) ∧
    (stepped ({ small with pc := 0xC000#16 }.withFetchWord 16 0x4420)).map (fun t => (t.reg 0, t.pc)) =
      some (5#16, 0xC002#16) := by decide

/-! ## The System Bus Controller on the platform of 95_test_vectors.md 2.9.1 -/

/-- The example platform. -/
def busPlatform : Platform where
  lowRam := 0x8000
  lowRom := 0x4000
  highRam := [{ base := 0x10000, size := 0x18000 }]
  highRom := []
  ramBytes := some 0x00020000#32
  romBytes := some 0x00008000#32
  sbcInfo := { kind := 0, manufacturer := 1, device := 1, flags := 0, sizes := [] }
  slots :=
    [none, some { kind := 2, manufacturer := 0x1234, device := 1, flags := 0, sizes := [1, 2, 3, 4, 5] },
      some { kind := 3, manufacturer := 0x1234, device := 2, flags := 0, sizes := [5] }]
  nvramBytes := some 0x100#32
  rtcPresent := true

/-- The example state: slot 3 has a window and an interrupt configuration; 6 November 2026, 14:30:05. -/
def bus : State :=
  { vec with
    platform := busPlatform
    sbc :=
      { vec.sbc with
        windows := [(3, { base := 0x0003000#28, size := 5#4 })]
        configs := [(3, 7#4)]
        rtc := { year := 126#8, month := 10, day := 5, hour := 14, minute := 30, second := 5 } } }

theorem test_hwq_slots : seen (bus.withRegs [(0, 0xBEEF)]) 0x5340 [look.reg 0, look.pc] = some [4, 0x102] := by decide
theorem test_hwq_memory :
    seen bus 0x5341 [look.reg 0, look.reg 1, look.reg 2, look.reg 3] = some [0, 2, 0x8000, 0] := by decide
theorem test_hwq_describe :
    seen (bus.withRegs [(0, 2)]) 0x5342 [look.reg 0, look.reg 1, look.reg 2, look.reg 3, look.reg 4] =
      some [2, 2, 0x1234, 1, 0] := by decide
theorem test_hwq_describe_empty : seen (bus.withRegs [(0, 1)]) 0x5342 [look.reg 0, look.reg 1] = some [1, 0xFFFF] := by
  decide
theorem test_hwq_message_empty :
    seen (bus.withRegs [(0, 1), (2, 1)]) 0x5343 [look.reg 0, look.reg 1, look.reg 2] = some [1, 0xFFFF, 1] := by decide
theorem test_hwq_read_window :
    seen (bus.withRegs [(0, 3)]) 0x5350 [look.reg 1, look.reg 2, look.reg 3] = some [1, 5, 3] := by decide
theorem test_hwq_write_window :
    (stepped ((bus.withRegs [(0, 2), (2, 0x8001)]).withFetchWord 16 0x5351)).map
      (fun t => (t.reg 1, t.sbc.window 2, t.sbc.window 3)) =
      some (1#16, { base := 0x0000800#28, size := 1#4 }, { base := 0x0003000#28, size := 5#4 }) := by decide
theorem test_hwq_write_window_misaligned :
    (stepped ((bus.withRegs [(0, 2), (2, 0x1002)]).withFetchWord 16 0x5351)).map (fun t => (t.reg 1, t.sbc.window 2)) =
      some (0xFFFF#16, noWindow) := by decide
theorem test_hwq_read_config : seen (bus.withRegs [(0, 3)]) 0x5352 [look.reg 1] = some [7] := by decide
theorem test_hwq_write_config :
    (stepped ((bus.withRegs [(0, 2), (2, 0x000B)]).withFetchWord 16 0x5353)).map (fun t => (t.reg 1, t.sbc.config 2)) =
      some (1#16, 0xB#4) := by decide
theorem test_hwq_write_config_reserved :
    (stepped ((bus.withRegs [(0, 2), (2, 0x001B)]).withFetchWord 16 0x5353)).map (fun t => (t.reg 1, t.sbc.config 2)) =
      some (0xFFFF#16, 0#4) := by decide
theorem test_hwq_clock : seen bus 0x5360 [look.reg 0, look.reg 1, look.reg 2] = some [0x7E0A, 0x050E, 0x1E05] := by decide
theorem test_hwq_nvram_size : seen bus 0x5361 [look.reg 1, look.reg 2, look.reg 3] = some [1, 0x100, 0] := by decide
theorem test_hwq_nvram_write :
    (stepped ((bus.withRegs [(0, 0x12AB), (2, 0x10)]).withFetchWord 16 0x5362)).map
      (fun t => (t.reg 0, t.reg 1, t.sbc.nvram)) = some (0x12AB#16, 1#16, [(0x10, 0xAB#8)]) := by decide
theorem test_hwq_nvram_read :
    seen ({ bus with sbc := { bus.sbc with nvram := [(0x10, 0xAB#8)] } }.withRegs [(2, 0x10)]) 0x5363 [look.reg 0, look.reg 1] =
      some [0xAB, 1] := by decide
theorem test_hwq_nvram_end : seen (bus.withRegs [(0, 0x55), (2, 0x100)]) 0x5362 [look.reg 1] = some [0xFFFF] := by decide

/-! ## For every statement with hypotheses, states that meet them -/

/-- An aligned word access that is permitted and reaches RAM. -/
def reaches (s : State) (p : Privilege) (k : AccessKind) (ea : Word) : Bool :=
  !ea.getLsbD 0 && s.allows p k ea && s.ownWord (s.physical p ea) && s.ramWord (s.physical p ea) && s.ram.wf

/-- A byte access that is permitted and reaches RAM. -/
def reachesByte (s : State) (p : Privilege) (k : AccessKind) (ea : Word) : Bool :=
  s.allows p k ea && s.ownByte (s.physical p ea) && decide (s.kindAt (s.physical p ea) = .ram) && s.ram.wf

/-- An aligned access that the page refuses. -/
def refused (s : State) (p : Privilege) (k : AccessKind) (ea : Word) : Bool := !ea.getLsbD 0 && s.denies p k ea

/-- User mode with a base register of an unimplemented format: every access is refused. -/
def badTable : State := { mapped with tu := 0x00010041#32 }

/-- Odd addresses everywhere. -/
def odd : State := { vec with pc := 0x0101#16, ss := 0x7001#16 }.withRegs [(1, 0x2001), (2, 4)]

/-- Even addresses in RAM. -/
def even : State := vec.withRegs [(1, 0x2000), (2, 4), (3, 7)]

theorem witness_EncodeDecode : decode 0x00D1#16 = .ok (.add 1 2 3) := by decide

theorem witness_ReservedWords :
    (∃ e, decode 0x4900#16 = .error e) ∧
    ∃ (s t : State) (w : Word) (e : Reserved), s.takeInputs.boundary = .run ∧
      s.takeInputs.fetch s.takeInputs.pc = .done w t ∧ decode w = .error e :=
  ⟨⟨.unlisted, by decide⟩, vec.withFetchWord 16 0x4900, vec.withFetchWord 16 0x4900, 0x4900#16, .unlisted, by decide,
    by decide, by decide⟩

theorem witness_StepRunsDecoded :
    ∃ (s t : State) (w : Word) (i : Instr), s.takeInputs.boundary = .run ∧
      s.takeInputs.fetch s.takeInputs.pc = .done w t ∧ decode w = .ok i :=
  ⟨vec.withFetchWord 16 0x00D1, vec.withFetchWord 16 0x00D1, 0x00D1#16, .add 1 2 3, by decide, by decide, by decide⟩

theorem witness_DivResult : (vec.reg 3).toNat = 0 ∧ (even.reg 3).toNat ≠ 0 := by decide

theorem witness_DviResult :
    (vec.reg 3).toInt = 0 ∧
    ((vec.withRegs [(2, 0x8000), (3, 0xFFFF)]).reg 2).toInt = -32768 ∧
    ((vec.withRegs [(2, 0x8000), (3, 0xFFFF)]).reg 3).toInt = -1 ∧
    ((vec.withRegs [(2, 0x8001), (3, 0xFFFF)]).reg 3).toInt ≠ 0 ∧
    ¬(((vec.withRegs [(2, 0x8001), (3, 0xFFFF)]).reg 2).toInt = -32768 ∧
      ((vec.withRegs [(2, 0x8001), (3, 0xFFFF)]).reg 3).toInt = -1) := by decide

theorem witness_BitTestMemory :
    (odd.reg 1).getLsbD 0 = true ∧ refused badTable .user .read 0 = true ∧ refused badTable .user .write 0 = true ∧
    reaches even .supervisor .read (even.reg 1) = true ∧ reaches even .supervisor .write (even.reg 1) = true := by decide

theorem witness_LoadWord :
    ((odd.reg 1 + odd.reg 2).getLsbD 0 = true ∧ (odd.reg 1 + BitVec.ofNat 16 14).getLsbD 0 = true ∧
      (odd.pc + BitVec.ofInt 16 (-64)).getLsbD 0 = true ∧ (odd.ss + BitVec.ofInt 16 62).getLsbD 0 = true) ∧
    (refused badTable .user .read (badTable.reg 1 + badTable.reg 2) = true ∧
      refused badTable .user .read (badTable.reg 1 + BitVec.ofNat 16 14) = true ∧
      refused badTable .user .read (badTable.pc + BitVec.ofInt 16 (-64)) = true ∧
      refused badTable .user .read (badTable.su + BitVec.ofInt 16 62) = true) ∧
    (reaches even .supervisor .read (even.reg 1 + even.reg 2) = true ∧
      reaches even .supervisor .read (even.reg 1 + BitVec.ofNat 16 14) = true ∧
      reaches even .supervisor .read (even.pc + BitVec.ofInt 16 (-64)) = true ∧
      reaches even .supervisor .read (even.ss + BitVec.ofInt 16 62) = true) := by decide

theorem witness_LoadByte :
    (badTable.denies .user .read (badTable.reg 1 + badTable.reg 2) = true ∧
      badTable.denies .user .read (badTable.reg 1 + BitVec.ofNat 16 7) = true) ∧
    (reachesByte even .supervisor .read (even.reg 1 + even.reg 3) = true ∧
      reachesByte even .supervisor .read (even.reg 1 + BitVec.ofNat 16 7) = true) := by decide

theorem witness_StoreWord :
    ((odd.reg 1 + odd.reg 2).getLsbD 0 = true ∧ (odd.reg 1 + BitVec.ofNat 16 14).getLsbD 0 = true ∧
      (odd.pc + BitVec.ofInt 16 (-64)).getLsbD 0 = true ∧ (odd.ss + BitVec.ofInt 16 62).getLsbD 0 = true) ∧
    (refused mapped .user .write (mapped.reg 1 + mapped.reg 2) = true ∧
      refused mapped .user .write (mapped.reg 1 + BitVec.ofNat 16 14) = true ∧
      refused mapped .user .write (mapped.pc + BitVec.ofInt 16 (-64)) = true ∧
      refused mapped .user .write (mapped.su + BitVec.ofInt 16 62) = true) ∧
    (reaches even .supervisor .write (even.reg 1 + even.reg 2) = true ∧
      reaches even .supervisor .write (even.reg 1 + BitVec.ofNat 16 14) = true ∧
      reaches even .supervisor .write (even.pc + BitVec.ofInt 16 (-64)) = true ∧
      reaches even .supervisor .write (even.ss + BitVec.ofInt 16 62) = true) := by decide

theorem witness_StoreByte :
    (mapped.denies .user .write (mapped.reg 1 + mapped.reg 2) = true ∧
      mapped.denies .user .write (mapped.reg 1 + BitVec.ofNat 16 7) = true) ∧
    (reachesByte even .supervisor .write (even.reg 1 + even.reg 3) = true ∧
      reachesByte even .supervisor .write (even.reg 1 + BitVec.ofNat 16 7) = true) := by decide

/-- Supervisor mode with the MMU on and the user page of Rm present, writable and open to user accesses. -/
def kernel : State :=
  { mapped with ps := psOf 0x6000#16 }.withRegs [(2, 0x1004)] |>.withWords [(0x10044, 0x1023), (0x10046, 0x0002)]

theorem witness_UserAccess :
    mapped.ps.mode = .user ∧ kernel.ps.mode = .supervisor ∧
    (reaches kernel .user .read (kernel.reg 2) = true ∧ reaches kernel .user .write (kernel.reg 2) = true ∧
      reachesByte kernel .user .read (kernel.reg 2) = true ∧ reachesByte kernel .user .write (kernel.reg 2) = true) ∧
    (odd.ps.mode = .supervisor ∧ (odd.reg 1).getLsbD 0 = true) ∧
    ((kernel.withRegs [(2, 0x2000)]).ps.mode = .supervisor ∧
      refused (kernel.withRegs [(2, 0x2000)]) .user .read 0x2000 = true ∧
      refused (kernel.withRegs [(2, 0x2000)]) .user .write 0x2000 = true) := by decide

theorem witness_PushPop :
    (0x7001#16).getLsbD 0 = true ∧ refused badTable .user .write (0x7000#16 - 2#16) = true ∧
    refused badTable .user .read 0x7000#16 = true ∧ reaches vec .supervisor .write (0x7000#16 - 2#16) = true ∧
    reaches vec .supervisor .read 0x7000#16 = true := by decide

theorem witness_StashRegisters :
    ((0b1000#4 ≠ 0#4) ∧ odd.sp.getLsbD 0 = true) ∧
    odd.pushWords odd.ps.mode odd.sp [odd.reg 3] = .abort .align odd ∧
    vec.pushWords vec.ps.mode vec.sp [] = .done vec.sp vec ∧ (odd.ps.mmu = false ∧ (0#4 = 0#4 ∨ odd.sp.getLsbD 0 = false)) ∧
    (vec.ps.mmu = false ∧ (0b1111#4 = 0#4 ∨ vec.sp.getLsbD 0 = false)) := by decide

theorem witness_RestoreRegisters :
    (0b0001#4 ≠ 0#4 ∧ odd.sp.getLsbD 0 = true) ∧
    odd.popWords odd.ps.mode odd.sp (maskCount 0b0001#4) = .abort .align odd ∧
    vec.popWords vec.ps.mode vec.sp (maskCount 0b1111#4) = .done [0#16, 0#16, 0#16, 0#16] vec ∧
    (odd.ps.mmu = false ∧ (0#4 = 0#4 ∨ odd.sp.getLsbD 0 = false) ∧ odd.ownFrame (maskCount 0#4) = true) ∧
    (vec.ps.mmu = false ∧ (0b1111#4 = 0#4 ∨ vec.sp.getLsbD 0 = false) ∧ vec.ownFrame (maskCount 0b1111#4) = true) := by
  decide

/-- A frame with a PS word at SP. -/
def framedPs (w : Word) : State := vec.withWords [(0x7000, w)]

theorem witness_RestoreSpecial :
    (0b1111#4 ≠ 0#4 ∧ odd.sp.getLsbD 0 = true) ∧
    odd.popWords odd.ps.mode odd.sp (maskCount 0b0010#4) = .abort .align odd ∧
    (framedPs 0x8000#16).popWords .supervisor (framedPs 0x8000#16).sp (maskCount 0b0010#4) =
      .done [0x8000#16] (framedPs 0x8000#16) ∧
    (vec.ps.mmu = false ∧ (0b0010#4 = 0#4 ∨ vec.sp.getLsbD 0 = false) ∧
      (framedPs 0x8000#16).ownFrame (maskCount 0b0010#4) = true) ∧
    -- refused
    (decide ((framedPs 0x8000#16).ps.mode = .user) = false ∧ (0b0010#4).getLsbD 1 = true ∧
      ((framedPs 0x8000#16).popped 0b0010#4 1).getLsbD 15 = true) ∧
    -- committed, in supervisor mode and in user mode
    (((framedPs 0x7FFF#16).popped 0b0010#4 1).getLsbD 15 = false ∧
      decide ({ framedPs 0x8000#16 with ps := psOf 0#16 }.ps.mode = .user) = true) := by decide

theorem witness_JumpBranch : { vec with ps := psOf 0#16 }.ps.mode = .user ∧ vec.ps.mode = .supervisor := by decide

theorem witness_CallReturn :
    (odd.sp - 2#16).getLsbD 0 = true ∧ odd.sp.getLsbD 0 = true ∧
    refused badTable .user .write (badTable.sp - 2#16) = true ∧ refused badTable .user .read badTable.sp = true ∧
    reaches vec .supervisor .write (vec.sp - 2#16) = true ∧ reaches vec .supervisor .read vec.sp = true := by decide

theorem witness_FlagsNopSleep : vec.ps.mode = .supervisor ∧ { vec with ps := psOf 0#16 }.ps.mode = .user := by decide

theorem witness_ReadSpecial :
    mapped.ps.mode = .user ∧ vec.ps.mode = .supervisor ∧ (6#3).getLsbD 0 = false := by decide

theorem witness_WriteSpecial :
    mapped.ps.mode = .user ∧
    (vec.ps.mode = .supervisor ∧ ((vec.withRegs [(6, 0x8000)]).reg 6).getLsbD 15 = true ∧
      ((vec.withRegs [(6, 0x7FFF)]).reg 6).getLsbD 15 = false ∧ (6#3).getLsbD 0 = false) := by decide

theorem witness_SpecialTraps :
    (0x0D ≤ (0x0D#5).toNat ∧ 0x0D ≤ (0x1F#5).toNat) ∧
    (mapped.ps.mode = .user ∧ 0x03 ≤ (0x03#5).toNat ∧ (0x03#5).toNat ≤ 0x0C ∧ 0x03 ≤ (0x0C#5).toNat ∧
      (0x0C#5).toNat ≤ 0x0C) ∧
    (vec.ps.mode = .supervisor ∧ 0x08 ≤ (0x08#5).toNat ∧ (0x08#5).toNat ≤ 0x0C ∧ 0x08 ≤ (0x0C#5).toNat ∧
      (7#3).getLsbD 0 = true) := by decide

/-- TU points into RAM. -/
def tabled (m : Word) : State := { vec with tu := 0x00014000#32 }.withRegs [(1, m)]

theorem witness_TableEntryAccess :
    ((tabled 15#16).ps.mode = .supervisor ∧ (tabled 15#16).tu &&& 3#32 = 0#32 ∧ ((tabled 15#16).reg 1).toNat ≤ 15) ∧
    (tabled 15#16).ownDWord (((tabled 15#16).tu &&& 0xFFFFFFC0#32) + BitVec.ofNat 32 (4 * 15)) = true ∧
    (tabled 0xF000#16).ownDWord
      (((tabled 0xF000#16).tu &&& 0xFFFFFFC0#32) + BitVec.ofNat 32 (4 * (((tabled 0xF000#16).reg 1).toNat / 4096))) = true :=
  by decide

theorem witness_TableEntryTraps :
    (vec.ps.mode = .supervisor ∧ { vec with tu := 1#32 }.tu &&& 3#32 ≠ 0#32) ∧
    ((tabled 16#16).ps.mode = .supervisor ∧ (tabled 16#16).tu &&& 3#32 = 0#32 ∧ 15 < ((tabled 16#16).reg 1).toNat) := by
  decide

theorem witness_PrivilegeTraps :
    mapped.ps.mode = .user ∧ vec.ps.mode = .supervisor ∧
    (∀ op ∈ [0x04#6, 0x0F#6, 0x14#6, 0x1F#6, 0x24#6, 0x3F#6],
      (0x04 ≤ op.toNat ∧ op.toNat ≤ 0x0F) ∨ (0x14 ≤ op.toNat ∧ op.toNat ≤ 0x1F) ∨ 0x24 ≤ op.toNat) := by decide

theorem witness_HwqIdentify :
    bus.ps.mode = .supervisor ∧ (bus.platform.slotInfo (bus.reg 0).toNat).isSome = true ∧
    bus.platform.slotInfo 0 = some busPlatform.sbcInfo ∧ bus.platform.slotInfo ((bus.withRegs [(0, 4)]).reg 0).toNat = none :=
  by decide

theorem witness_HwqMessage :
    bus.ps.mode = .supervisor ∧ bus.platform.present ((bus.withRegs [(0, 1)]).reg 0).toNat = false ∧
    bus.platform.present ((bus.withRegs [(0, 2)]).reg 0).toNat = true := by decide

theorem witness_HwqWindows :
    bus.ps.mode = .supervisor ∧ sparseWf noWindow bus.sbc.windows = true ∧ bus.platform.slotInfo 1 = none ∧
    ∃ info, bus.platform.slotInfo 2 = some info ∧
      -- a size the slot does not support; a base that is no multiple of the size
      (6 ≠ 0 ∧ BitVec.ofNat 4 6 ∉ info.sizes) ∧ (0x1000 % 2 ^ (11 + 2) ≠ 0) ∧
      -- accepted; it meets RAM at 0
      (BitVec.ofNat 4 1 ∈ info.sizes ∧ 0 % 2 ^ (11 + 1) = 0 ∧ bus.platform.isRam 0 = true) ∧
      -- accepted, size 0: no byte is claimed
      ¬∃ a, 0x8000 ≤ a ∧ a < 0x8000 + 0 := by
  refine ⟨by decide, by decide, by decide,
    { kind := 2, manufacturer := 0x1234, device := 1, flags := 0, sizes := [1, 2, 3, 4, 5] }, by decide, by decide, by decide,
    by decide, ?_⟩
  rintro ⟨a, h, k⟩
  omega

theorem witness_HwqInterrupts :
    bus.ps.mode = .supervisor ∧ sparseWf 0#4 bus.sbc.configs = true ∧ bus.platform.present 1 = false ∧
    bus.platform.present 2 = true ∧ 16 ≤ ((bus.withRegs [(2, 16)]).reg 2).toNat ∧
    ((bus.withRegs [(2, 15)]).reg 2).toNat < 16 := by decide

theorem witness_HwqClock :
    bus.ps.mode = .supervisor ∧ bus.platform.rtcPresent = true ∧ vec.ps.mode = .supervisor ∧
    vec.platform.rtcPresent = false := by decide

/-- The NVRAM is write-protected. -/
def guarded : State := { bus with sbc := { bus.sbc with nvramProtected := true } }

/-- Writes to the NVRAM fail. -/
def failing : State := { bus with sbc := { bus.sbc with nvramFailing := true } }

theorem witness_HwqNvram :
    (vec.ps.mode = .supervisor ∧ vec.sbc.nvram.wf = true ∧ vec.platform.nvramBytes = none) ∧
    (bus.ps.mode = .supervisor ∧ bus.sbc.nvram.wf = true ∧ bus.platform.nvramBytes = some 0x100#32) ∧
    (0x100#32).toNat ≤ ((bus.withRegs [(2, 0x100)]).reg 3).toNat * 65536 + ((bus.withRegs [(2, 0x100)]).reg 2).toNat ∧
    (((bus.withRegs [(2, 0xFF)]).reg 3).toNat * 65536 + ((bus.withRegs [(2, 0xFF)]).reg 2).toNat < (0x100#32).toNat ∧
      bus.sbc.nvramProtected = false ∧ bus.sbc.nvramFailing = false) ∧
    (guarded.ps.mode = .supervisor ∧ guarded.sbc.nvram.wf = true ∧ guarded.platform.nvramBytes = some 0x100#32 ∧
      guarded.sbc.nvramProtected = true) ∧
    (failing.ps.mode = .supervisor ∧ failing.sbc.nvram.wf = true ∧ failing.platform.nvramBytes = some 0x100#32 ∧
      failing.sbc.nvramFailing = true) := by decide

/-- Slots 2 and 3 request, with equal priority. -/
def requesting : State :=
  { bus with
    ps := psOf 0x5000#16
    im := IntMask.ofWord 2#16
    sbc := { bus.sbc with irq := [(2, true), (3, true)], configs := [(2, 7#4), (3, 7#4)] } }

theorem witness_HwiSelection :
    sparseWf false requesting.sbc.irq = true ∧ requesting.hwiCandidate = some 2 ∧ sparseWf false vec.sbc.irq = true ∧
    vec.hwiCandidate = none := by decide

theorem witness_TrapEntry : vec.entryPlain .swi = true ∧ vec.entryPlain .breakpoint = true := by decide

theorem witness_FaultEscalation :
    ({ vec with ps := psOf 0x4050#16 }.ps.level.toNat ≤ 5 ∧
      { vec with ps := psOf 0x4050#16 }.entryPlain (FaultCause.page 1#16 2#16).interrupt = true ∧
      { vec with ps := psOf 0x4050#16 }.entryPlain FaultCause.divZero.interrupt = true) ∧
    (∀ cause address, FaultCause.divZero ≠ .page cause address) ∧
    ({ vec with ps := psOf 0x4060#16 }.ps.level.toNat = 6 ∧ { vec with ps := psOf 0x4060#16 }.entryPlain .double = true) ∧
    { vec with ps := psOf 0x4070#16 }.ps.level.toNat = 7 := by
  refine ⟨by decide, ?_, by decide, by decide⟩
  intro _ _ h
  cases h

theorem witness_EntryEffect : vec.enter .swi 0#16 none = .done () (vec.entered .swi 0#16 3#3) := by decide

theorem witness_EntryFrame :
    vec.ps.mmu = false ∧ vec.ram.wf = true ∧ vec.ramWord ((vec.ss - 2#16).setWidth 32) = true ∧
    vec.ramWord ((vec.ss - 4#16).setWidth 32) = true ∧ vec.ramWord ((vec.ss - 6#16).setWidth 32) = true ∧
    vec.enter .timer 0#16 none = .done () (vec.entered .timer 0#16 2#3) ∧
    (odd.beginEntry .swi none).pushWords .supervisor odd.ss [odd.pc, odd.ps.toWord, odd.ic] =
      .abort .align (odd.beginEntry .swi none) ∧
    (match (vec.beginEntry .timer none).pushWords .supervisor vec.ss [vec.pc, vec.ps.toWord, vec.ic] with
      | .done sp _ => sp == vec.ss - 6#16
      | .abort _ _ => false) = true := by decide

/-- A stack with the frame of an interrupt at SS. -/
def interrupted (w : Word) : State := vec.withWords [(0x7000, 0x0001), (0x7002, w), (0x7004, 0x0456)]

/-- The three words a return from interrupt pops. -/
def popped (s : State) : Option (List Word) :=
  match s.popWords .supervisor s.ss 3 with
  | .done words _ => some words
  | .abort _ _ => none

theorem witness_ReturnFromInterrupt :
    (odd.ps.mode = .supervisor ∧ odd.ss.getLsbD 0 = true ∧ odd.popWords .supervisor odd.ss 3 = .abort .align odd) ∧
    ((interrupted 0x8000#16).ps.mode = .supervisor ∧ (interrupted 0x8000#16).ps.mmu = false ∧
      (interrupted 0x8000#16).ss.getLsbD 0 = false ∧ (interrupted 0x8000#16).ownFrame 3 = true ∧
      popped (interrupted 0x8000#16) = some [0x0001#16, 0x8000#16, 0x0456#16]) ∧
    ((interrupted 0x7FFF#16).ps.mode = .supervisor ∧ (interrupted 0x7FFF#16).ps.mmu = false ∧
      (interrupted 0x7FFF#16).ss.getLsbD 0 = false ∧ (interrupted 0x7FFF#16).ownFrame 3 = true ∧
      popped (interrupted 0x7FFF#16) = some [0x0001#16, 0x7FFF#16, 0x0456#16]) ∧
    (0x8000#16).getLsbD 15 = true ∧ (0x7FFF#16).getLsbD 15 = false := by decide

theorem witness_SwiThenRti :
    vec.entryPlain .swi = true ∧ vec.ram.wf = true ∧ vec.ramWord ((vec.ss - 2#16).setWidth 32) = true ∧
    vec.ramWord ((vec.ss - 4#16).setWidth 32) = true ∧ vec.ramWord ((vec.ss - 6#16).setWidth 32) = true ∧
    exec .swi vec = .next (vec.takeInterrupt .swi (userCause vec.inUser)) :=
  ⟨by decide, by decide, by decide, by decide, by decide, rfl⟩

/-- The Timer is ready: CL has reached CC. -/
def timed : State := { vec with ps := psOf 0x5010#16, im := IntMask.ofWord 1#16 }

theorem witness_BoundaryOrder :
    { vec with resetPending := true }.boundary = .reset ∧ { vec with debugLatch := true }.boundary = .debugQuery ∧
    timed.boundary = .timer ∧ requesting.boundary = .hwi 2 ∧ { vec with asleep := true }.boundary = .sleep ∧
    vec.boundary = .run ∧ sparseWf false requesting.sbc.irq = true ∧ vec.inputs = [] ∧
    { vec with inputs := [[]] }.inputs = [] :: [] ∧
    { vec with inputs := [[.debugLine true]] }.inputs = [.debugLine true] :: [] := by decide

theorem witness_AsynchronousStep :
    (timed.takeInputs.boundary = .timer ∧ timed.takeInputs.entryPlain .timer = true) ∧
    (requesting.takeInputs.boundary = .hwi 2 ∧ requesting.takeInputs.entryPlain .hwi = true) ∧
    ({ vec with inputs := [[.debugLine true]] }.takeInputs.boundary = .debugQuery ∧
      { vec with inputs := [[.debugLine true]] }.takeInputs.entryPlain .debugQuery = true) ∧
    { vec with asleep := true }.takeInputs.boundary = .sleep := by decide

theorem witness_ResetStep :
    { vec with resetPending := true }.takeInputs.boundary = .reset ∧
    { vec with inputs := [[.resetLine true]] }.takeInputs.boundary = .reset := by decide

theorem witness_Translation :
    vec.ps.mmu = false ∧ mapped.allows .user .exec 0x0100#16 = true ∧ mapped.denies .user .write 0x0FFF#16 = true ∧
    (0x0FFF#16).getLsbD 0 = true ∧ (0x0100#16).getLsbD 0 = false := by decide

theorem witness_PhysicalMemory :
    vec.ram.wf = true ∧ vec.ramWord 0x7FFE#32 = true ∧ vec.kindAt 0x8000#32 ≠ .ram ∧ vec.kindAt 0x7FFF#32 = .ram ∧
    vec.ramWord (0x7FFC#32 + 2#32) = true ∧ vec.ramWord 0x7FFC#32 = true ∧ sparseWf noWindow bus.sbc.windows = true ∧
    vec.kindAt 0xC000#32 = .rom ∧ vec.kindAt 0xBFFF#32 = .unconnected ∧ bus.kindAt 0x3FFFF#32 = .window 3 ∧
    vec.ownWord 0xFFFE#32 = true ∧ vec.ownDWord 0xFFFFFFFE#32 = true := by decide

theorem witness_FetchWord :
    odd.pc.getLsbD 0 = true ∧ (badTable.pc.getLsbD 0 = false ∧ badTable.denies badTable.ps.mode .exec badTable.pc = true) ∧
    (mapped.pc.getLsbD 0 = false ∧ mapped.allows mapped.ps.mode .exec mapped.pc = true ∧
      mapped.ownWord (mapped.physical mapped.ps.mode mapped.pc) = true) ∧
    (odd.takeInputs.boundary = .run ∧ odd.takeInputs.fetch odd.takeInputs.pc = .abort .align odd) := by decide

/-- A state with a step that has a next state meets both premises of the invariant's statement. -/
theorem witness_StepKeepsInv :
    (bus.withFetchWord 16 0x50C5).inv = true ∧ (stepped (bus.withFetchWord 16 0x50C5)).isSome = true := by decide

theorem witness_RomFixed : (stepped (vec.withFetchWord 16 0x50C5)).isSome = true := by decide

theorem witness_UserIsolation :
    mapped.ps.mode = .user ∧ exec .nop mapped = .next mapped ∧
    exec .swi mapped = .next (mapped.takeInterrupt .swi (userCause mapped.inUser)) ∧
    (mapped.takeInterrupt .swi (userCause mapped.inUser)).ps.mode = .supervisor :=
  ⟨by decide, rfl, rfl, by decide⟩

end Sys2Proof.Tests
end

section
/-! PROOFS. Address translation and the word accesses, in the terms of the statements (`allows`, `denies`, `physical`,
`touched`, `pageFaultCause`); on them the instruction cycle and the stack. -/

namespace Sys2Proof.Proofs

open Sys2Proof.Machine Sys2Proof.Laws

/-! ## Bit fields -/

/-- An append of bit vectors as a number. -/
theorem toNat_append_eq_mul_add {m n : Nat} (x : BitVec m) (y : BitVec n) :
    (x ++ y).toNat = x.toNat * 2 ^ n + y.toNat := by
  rw [BitVec.toNat_append, ← Nat.shiftLeft_add_eq_or_of_lt y.isLt, Nat.shiftLeft_eq]

/-- Two values masked to their high and low bits and put together. -/
theorem and_high_or_and_low {m n k : Nat} (x : BitVec (m + n)) (y : BitVec (k + n)) :
    (x &&& (BitVec.allOnes m ++ 0#n)) ||| (y &&& (0#k ++ BitVec.allOnes n)).setWidth (m + n) =
      x.extractLsb' n m ++ y.extractLsb' 0 n := by
  apply BitVec.eq_of_getLsbD_eq
  intro i hi
  by_cases hn : i < n
  · simp [BitVec.getElem_append, hn, hi]
  · have hm : i - n < m := by omega
    have hi' : n + (i - n) = i := by omega
    simp [BitVec.getLsbD_append, hn, hm, hi']

/-- The high bits of a value as a number. -/
theorem toNat_and_high {m n : Nat} (x : BitVec (m + n)) :
    (x &&& (BitVec.allOnes m ++ 0#n)).toNat = x.toNat / 2 ^ n * 2 ^ n := by
  have h := and_high_or_and_low (k := 0) x 0#(0 + n)
  simp only [BitVec.zero_and, BitVec.setWidth_zero, BitVec.or_zero] at h
  rw [h, toNat_append_eq_mul_add]
  have : x.toNat / 2 ^ n < 2 ^ m := by
    rw [Nat.div_lt_iff_lt_mul (Nat.two_pow_pos n), ← Nat.pow_add]; exact x.isLt
  simp [Nat.shiftRight_eq_div_pow, Nat.mod_eq_of_lt this]

/-! ## The formulas of the statements are those of the model -/

/-- The address of a page table entry by its fields (R123) is the one by the mask of R120. -/
theorem entryAddress_eq (base : DWord) (va : Word) :
    entryAddress base (va.extractLsb' 12 4) = (base &&& 0xFFFFFFC0#32) + 4#32 * (va >>> 12).setWidth 32 := by
  have hentry : (entryAddress base (va.extractLsb' 12 4)).toNat =
      (base.extractLsb' 6 26 ++ va.extractLsb' 12 4).toNat * 4 + 0 := toNat_append_eq_mul_add _ 0#2
  have hfields : (base.extractLsb' 6 26 ++ va.extractLsb' 12 4).toNat =
      (base.extractLsb' 6 26).toNat * 16 + (va.extractLsb' 12 4).toNat := toNat_append_eq_mul_add _ _
  have hmask : (base &&& 0xFFFFFFC0#32).toNat = base.toNat / 64 * 64 := toNat_and_high (m := 26) (n := 6) base
  apply BitVec.eq_of_toNat_eq
  rw [hentry, hfields, BitVec.toNat_add, hmask]
  simp [Nat.shiftRight_eq_div_pow]
  omega

/-- The frame and the offset of an address by their fields are those by the masks of R120. -/
theorem frame_append_offset (e : DWord) (va : Word) :
    e.extractLsb' 12 20 ++ va.extractLsb' 0 12 = (e &&& 0xFFFFF000#32) ||| (va &&& 0x0FFF#16).setWidth 32 :=
  (and_high_or_and_low (m := 20) (n := 12) (k := 4) e va).symm

/-- The address of the entry for `va`, as the model forms it. -/
theorem pteAddress_eq (s : State) (p : Privilege) (va : Word) :
    s.pteAddress p va = entryAddress (s.tableRegister p) (va.extractLsb' 12 4) := (entryAddress_eq _ va).symm

/-- The format bits of a base register (R121). -/
theorem tableFormatOk_iff (s : State) (p : Privilege) :
    s.tableFormatOk p = true ↔ (s.tableRegister p).extractLsb' 0 2 = 0#2 := by
  have hmod : ∀ n : Nat, n &&& 3 = n % 4 := fun n => Nat.and_two_pow_sub_one_eq_mod n 2
  simp [State.tableFormatOk, ← BitVec.toNat_inj, hmod]

/-- R124 says which accesses an entry permits; the model asks which it forbids. -/
theorem pteForbids_eq (p : Privilege) (k : AccessKind) (e : DWord) : pteForbids p k e = !ptePermits p k e := by
  simp [pteForbids, ptePermits, ptePresent, pteUser, pteWritable, pteExecutable, Bool.not_and]

/-- The bits A and D that an access sets (R126). -/
theorem touchedPte_eq (s : State) (p : Privilege) (k : AccessKind) (va : Word) :
    s.touchedPte p k va = pteTouched k (s.pte p va) := by
  cases k <;> simp [State.touchedPte, pteTouched, BitVec.or_assoc]

/-- A cause word is the union of its bits (R125). -/
theorem pageCause_eq_causeBits :
    ∀ user notPresent write exec privilege badTable : Bool,
      pageCause user notPresent write exec privilege badTable =
        causeBit user 0 ||| causeBit notPresent 1 ||| causeBit write 2 ||| causeBit exec 3 ||| causeBit privilege 4
          ||| causeBit badTable 5 := by decide

@[simp] theorem causeBit_false (k : Nat) : causeBit false k = 0#16 := rfl

/-- The cause of a fault where the base register has no implemented format. -/
theorem pageFaultCause_of_badTable {s : State} {p : Privilege} (k : AccessKind) (va : Word)
    (hf : s.tableFormatOk p = false) :
    s.pageFaultCause p k va = pageCause (s.userFault p) false false false false true := by
  simp [State.pageFaultCause, hf, pageCause_eq_causeBits, State.userFault, State.inUser]

/-- The cause of a fault where the entry forbids the access. -/
theorem pageFaultCause_of_entry {s : State} {p : Privilege} (k : AccessKind) (va : Word)
    (hf : s.tableFormatOk p = true) :
    s.pageFaultCause p k va = forbiddenCause (s.userFault p) p k (s.pte p va) := by
  simp [State.pageFaultCause, hf, forbiddenCause, pageCause_eq_causeBits, State.userFault, State.inUser, ptePresent,
    pteWritable, pteExecutable, pteUser]

/-! ## Translation -/

theorem translate_mmuOff {s : State} (p : Privilege) (k : AccessKind) (va : Word) (hm : s.ps.mmu = false) :
    s.translate p k va = .done (va.setWidth 32) s := by
  simp [State.translate, hm]

theorem translate_badTable {s : State} {p : Privilege} (k : AccessKind) (va : Word) (hm : s.ps.mmu = true)
    (hf : s.tableFormatOk p = false) :
    s.translate p k va = .abort (.page (s.pageFaultCause p k va) va) s := by
  have hformat : (s.tableRegister p).extractLsb' 0 2 ≠ 0#2 := by
    rw [ne_eq, ← tableFormatOk_iff, hf]; exact Bool.false_ne_true
  simp [State.translate, hm, hformat, pageFaultCause_of_badTable k va hf]

/-- With the MMU on and the entry in memory, the entry decides (R120, R124). -/
theorem translate_entry {s : State} {p : Privilege} (k : AccessKind) {va : Word} (hm : s.ps.mmu = true)
    (hf : s.tableFormatOk p = true) (ho : s.pteOwn p va = true) :
    s.translate p k va =
      if ptePermits p k (s.pte p va) then .done (s.physical p va) (s.touched p k va)
      else .abort (.page (s.pageFaultCause p k va) va) s := by
  have hentry : s.physRead4 (s.pteAddress p va) = (s.pte p va, s) := physRead4_own s _ ho
  have hback : s.writeBack (s.pteAddress p va) (s.pte p va) (pteTouched k (s.pte p va)) = s.touched p k va := by
    rw [State.writeBack, State.touched, touchedPte_eq]
    simp [hm]
  have hphys : s.physical p va = (s.pte p va).extractLsb' 12 20 ++ va.extractLsb' 0 12 := by
    rw [State.physical, if_pos hm, frame_append_offset]
  simp only [State.translate, hm, if_true, (tableFormatOk_iff s p).1 hf, ← pteAddress_eq, hentry, pteForbids_eq, hback,
    ← hphys, ← pageFaultCause_of_entry k va hf]
  cases ptePermits p k (s.pte p va) <;> rfl

theorem translate_of_allows {s : State} {p : Privilege} {k : AccessKind} {va : Word} (h : s.allows p k va = true) :
    s.translate p k va = .done (s.physical p va) (s.touched p k va) := by
  cases hm : s.ps.mmu with
  | false => rw [translate_mmuOff p k va hm]; simp [State.physical, State.touched, hm]
  | true =>
    simp only [State.allows, hm, Bool.not_true, Bool.false_or, Bool.and_eq_true] at h
    obtain ⟨⟨hformat, hown⟩, hpermits⟩ := h
    rw [translate_entry k hm hformat hown, if_pos hpermits]

theorem translate_of_denies {s : State} {p : Privilege} {k : AccessKind} {va : Word} (h : s.denies p k va = true) :
    s.translate p k va = .abort (.page (s.pageFaultCause p k va) va) s := by
  simp only [State.denies, Bool.and_eq_true, Bool.or_eq_true, Bool.not_eq_true'] at h
  obtain ⟨hm, hrefused⟩ := h
  cases hf : s.tableFormatOk p with
  | false => exact translate_badTable k va hm hf
  | true =>
    obtain ⟨hown, hforbids⟩ := hrefused.resolve_left (by simp [hf])
    rw [translate_entry k hm hf hown, hforbids]; rfl

/-- An odd address faults before any translation (R105, D5). -/
theorem translateWord_of_odd {s : State} (p : Privilege) (k : AccessKind) {va : Word} (h : va.getLsbD 0 = true) :
    s.translateWord p k va = .abort .align s := by
  rw [State.translateWord, if_pos h]

theorem translateWord_of_even {s : State} (p : Privilege) (k : AccessKind) {va : Word} (h : va.getLsbD 0 = false) :
    s.translateWord p k va = s.translate p k va := by
  simp only [State.translateWord, h, Bool.false_eq_true, if_false]

/-! ## The state after a translation or a read -/

theorem touched_memory (s : State) (p : Privilege) (k : AccessKind) (va : Word) : MemoryStep s (s.touched p k va) := by
  unfold State.touched
  split
  · exact physWrite4_memory s _ _
  · exact MemoryStep.refl s

@[simp] theorem physWrite1_draws (s : State) (a : DWord) (v : Byte) : (s.physWrite1 a v).draws = s.draws := by
  rw [physWrite1_same]

@[simp] theorem touched_draws (s : State) (p : Privilege) (k : AccessKind) (va : Word) :
    (s.touched p k va).draws = s.draws := by
  unfold State.touched
  split <;> simp [State.physWrite4, State.physWrite2]

theorem same_ownWord {s t : State} (h : SameButMemory s t) (a : DWord) : t.ownWord a = s.ownWord a := by
  simp only [State.ownWord, State.ownByte, same_kindAt h]

/-- A read of one physical word leaves the state alone, but for the draw counter. -/
theorem physRead2_state (s : State) (a : DWord) : ∃ n, (s.physRead2 a).2 = { s with draws := n } := by
  have hread1 : ∀ (t : State) (b : DWord), ∃ n, (t.physRead1 b).2 = { t with draws := n } := by
    intro t b
    rcases physRead1_state t b with h | h
    · exact ⟨t.draws, h⟩
    · exact ⟨t.draws + 1, h⟩
  obtain ⟨m, hlow⟩ := hread1 s a
  obtain ⟨n, hhigh⟩ := hread1 (s.physRead1 a).2 (a + 1#32)
  refine ⟨n, ?_⟩
  calc (s.physRead2 a).2 = ((s.physRead1 a).2.physRead1 (a + 1#32)).2 := rfl
    _ = { (s.physRead1 a).2 with draws := n } := hhigh
    _ = { s with draws := n } := by rw [hlow]

/-! ## Word accesses -/

theorem readWordAs_of_odd {s : State} (p : Privilege) (k : AccessKind) {va : Word} (h : va.getLsbD 0 = true) :
    s.readWordAs p k va = .abort .align s := by
  rw [State.readWordAs, translateWord_of_odd p k h, bind_abort]

theorem readWordAs_of_denies {s : State} {p : Privilege} {k : AccessKind} {va : Word} (heven : va.getLsbD 0 = false)
    (h : s.denies p k va = true) : s.readWordAs p k va = .abort (.page (s.pageFaultCause p k va) va) s := by
  rw [State.readWordAs, translateWord_of_even p k heven, translate_of_denies h, bind_abort]

theorem readWordAs_of_allows {s : State} {p : Privilege} {k : AccessKind} {va : Word} (heven : va.getLsbD 0 = false)
    (h : s.allows p k va = true) :
    s.readWordAs p k va =
      .done ((s.touched p k va).physRead2 (s.physical p va)).1 ((s.touched p k va).physRead2 (s.physical p va)).2 := by
  rw [State.readWordAs, translateWord_of_even p k heven, translate_of_allows h, bind_done]

/-- A permitted read from memory, not from a device window, answers the word memory holds. -/
theorem readWordAs_own {s : State} {p : Privilege} {k : AccessKind} {va : Word} (heven : va.getLsbD 0 = false)
    (h : s.allows p k va = true) (hown : s.ownWord (s.physical p va) = true) :
    s.readWordAs p k va = .done ((s.touched p k va).wordAt (s.physical p va)) (s.touched p k va) := by
  have hown' : (s.touched p k va).ownWord (s.physical p va) = true := by
    rw [same_ownWord (touched_memory s p k va).1, hown]
  rw [readWordAs_of_allows heven h, physRead2_own _ _ hown']

/-- A permitted read, from memory or from a device window. -/
theorem readWordAs_some {s : State} {p : Privilege} {k : AccessKind} {va : Word} (heven : va.getLsbD 0 = false)
    (h : s.allows p k va = true) :
    ∃ (w : Word) (n : Nat),
      (s.ownWord (s.physical p va) = true → w = (s.touched p k va).wordAt (s.physical p va) ∧ n = s.draws) ∧
      s.readWordAs p k va = .done w { s.touched p k va with draws := n } := by
  cases hown : s.ownWord (s.physical p va) with
  | true =>
    refine ⟨_, s.draws, fun _ => ⟨rfl, rfl⟩, ?_⟩
    rw [readWordAs_own heven h hown, ← touched_draws s p k va]
  | false =>
    obtain ⟨n, hstate⟩ := physRead2_state (s.touched p k va) (s.physical p va)
    exact ⟨_, n, nofun, by rw [readWordAs_of_allows heven h, hstate]⟩

theorem writeWordAs_of_odd {s : State} (p : Privilege) {va : Word} (v : Word) (h : va.getLsbD 0 = true) :
    s.writeWordAs p va v = .abort .align s := by
  rw [State.writeWordAs, translateWord_of_odd p .write h, bind_abort]

theorem writeWordAs_of_denies {s : State} {p : Privilege} {va : Word} (v : Word) (heven : va.getLsbD 0 = false)
    (h : s.denies p .write va = true) :
    s.writeWordAs p va v = .abort (.page (s.pageFaultCause p .write va) va) s := by
  rw [State.writeWordAs, translateWord_of_even p .write heven, translate_of_denies h, bind_abort]

theorem writeWordAs_of_allows {s : State} {p : Privilege} {va : Word} (v : Word) (heven : va.getLsbD 0 = false)
    (h : s.allows p .write va = true) :
    s.writeWordAs p va v = .done () ((s.touched p .write va).physWrite2 (s.physical p va) v) := by
  rw [State.writeWordAs, translateWord_of_even p .write heven, translate_of_allows h, bind_done]

/-! ## The instruction cycle -/

/-- A step whose boundary lets an instruction run. -/
theorem step_of_run {s : State} (h : s.takeInputs.boundary = .run) : step s = s.takeInputs.runNext := by
  simp only [step, State.cycle, h]

theorem runNext_of_fetch_done {s t : State} {w : Word} (h : s.fetch s.pc = .done w t) : s.runNext = t.runWord w := by
  simp only [State.runNext, h]

theorem runNext_of_fetch_abort {s t : State} {e : FaultCause} (h : s.fetch s.pc = .abort e t) :
    s.runNext = .next (t.raiseFault e).idleTick := by
  simp only [State.runNext, h]

theorem runWord_of_decode {s : State} {w : Word} {i : Instr} (h : decode w = .ok i) :
    s.runWord w = chargeCycles i (exec i s.advance) := by
  simp only [State.runWord, h]

/-- A fetch, finished or aborted, leaves PC where it was (R36, D7). -/
theorem fetch_pc (s : State) (va : Word) : (final (s.fetch va)).pc = s.pc := by
  have hsame : SameButMemory s (final (s.fetch va)) := (readWordAs_memory s s.ps.mode .exec va).1
  rw [hsame]

/-- Settles O5: the boundary, the fetch and the decoder each take the branch their hypothesis names. -/
theorem stepRunsDecoded : Obligations.StepRunsDecoded := by
  intro s t w i hrun hfetch hdecode
  rw [step_of_run hrun, runNext_of_fetch_done hfetch, runWord_of_decode hdecode]
  change chargeCycles i (exec i { t with pc := t.pc + 2#16 }) = _
  cases exec i { t with pc := t.pc + 2#16 } <;> rfl

/-- Settles O56: the cases of an exec access at PC, and PC kept by a fetch that faults. -/
theorem fetchWord : Obligations.FetchWord := by
  intro s
  refine ⟨fun hodd => readWordAs_of_odd _ _ hodd, fun heven hdenies => readWordAs_of_denies heven hdenies,
    fun heven hallows => readWordAs_some heven hallows, fun e t hrun hfetch => ⟨?_, ?_⟩⟩
  · simpa [hfetch] using fetch_pc s.takeInputs s.takeInputs.pc
  · rw [step_of_run hrun, runNext_of_fetch_abort hfetch]

/-! ## The stack -/

theorem sp_of_user {s : State} (h : s.ps.mode = .user) : s.sp = s.su := by simp only [State.sp, h]

theorem sp_of_supervisor {s : State} (h : s.ps.mode = .supervisor) : s.sp = s.ss := by simp only [State.sp, h]

theorem setSp_of_user {s : State} (v : Word) (h : s.ps.mode = .user) : s.setSp v = { s with su := v } := by
  simp only [State.setSp, h]

theorem setSp_of_supervisor {s : State} (v : Word) (h : s.ps.mode = .supervisor) : s.setSp v = { s with ss := v } := by
  simp only [State.setSp, h]

/-- The word below the stack pointer is as aligned as the stack pointer. -/
theorem getLsbD_zero_sub_two (sp : Word) : (sp - 2#16).getLsbD 0 = sp.getLsbD 0 := by
  have hsub : (sp - 2#16).toNat % 2 = sp.toNat % 2 := by
    rw [BitVec.toNat_sub]
    simp only [BitVec.toNat_ofNat]
    omega
  simp only [BitVec.getLsbD, Nat.testBit_zero, hsub]

theorem pushWords_cons (s : State) (p : Privilege) (sp v : Word) (rest : List Word) :
    s.pushWords p sp (v :: rest) =
      (s.writeWordAs p (sp - 2#16) v).bind fun _ t => t.pushWords p (sp - 2#16) rest := rfl

theorem popWords_succ (s : State) (p : Privilege) (sp : Word) (n : Nat) :
    s.popWords p sp (n + 1) =
      (s.readWordAs p .read sp).bind fun v t =>
        (t.popWords p (sp + 2#16) n).bind fun rest u => .done (v :: rest) u := rfl

/-- Settles O25: a push is a write below SP and a pop a read at SP, each followed by the rest of the sequence. -/
theorem pushPop : Obligations.PushPop := by
  intro s p sp v rest n
  have hparity : (sp - 2#16).getLsbD 0 = sp.getLsbD 0 := getLsbD_zero_sub_two sp
  refine ⟨fun hu => ⟨sp_of_user hu, setSp_of_user sp hu⟩, fun hs => ⟨sp_of_supervisor hs, setSp_of_supervisor sp hs⟩,
    fun _ => rfl, fun _ => rfl, fun hodd => ⟨?_, ?_⟩, fun heven hdenies => ?_, fun heven hdenies => ?_,
    fun heven hallows => ?_, fun heven hallows hown => ?_⟩
  · rw [pushWords_cons, writeWordAs_of_odd p v (hparity.trans hodd), bind_abort]
  · rw [popWords_succ, readWordAs_of_odd p .read hodd, bind_abort]
  · rw [pushWords_cons, writeWordAs_of_denies v (hparity.trans heven) hdenies, bind_abort]
  · rw [popWords_succ, readWordAs_of_denies heven hdenies, bind_abort]
  · rw [pushWords_cons, writeWordAs_of_allows v (hparity.trans heven) hallows, bind_done]
  · rw [popWords_succ, readWordAs_own heven hallows hown, bind_done]
    cases (s.touched p .read sp).popWords p (sp + 2#16) n <;> rfl

end Sys2Proof.Proofs
end

section
/-! PROOFS. What every step keeps: ROM, the platform and the invariant. One relation, `Keeps`, is shown of every update of
the state, then of every instruction and of the boundary's other steps. -/

namespace Sys2Proof.Proofs

open Sys2Proof.Machine Sys2Proof.Laws

/-! ## The invariant by its parts -/

/-- What the invariant asks of the System Bus Controller, part by part. -/
structure SbcInvariant (c : Sbc) (p : Platform) : Prop where
  nvramWf : c.nvram.wf = true
  nvramOk : c.nvramOk p = true
  windowsWf : sparseWf noWindow c.windows = true
  windowsOk : c.windowsOk p = true
  configsWf : sparseWf 0#4 c.configs = true
  configsOk : c.configsOk p = true
  irqWf : sparseWf false c.irq = true

/-- What the invariant asks of the state, part by part. -/
structure Invariant (s : State) : Prop where
  ramWf : s.ram.wf = true
  ramOk : s.ramOk = true
  romWf : s.rom.wf = true
  sbc : SbcInvariant s.sbc s.platform
  slots : s.platform.slotCount ≤ 65535

theorem inv_iff (s : State) : s.inv = true ↔ Invariant s := by
  simp only [State.inv, State.canonical, Bool.and_eq_true, decide_eq_true_eq]
  constructor
  · rintro ⟨⟨⟨⟨⟨⟨⟨⟨⟨⟨ramWf, romWf⟩, nvramWf⟩, windowsWf⟩, configsWf⟩, irqWf⟩, ramOk⟩, windowsOk⟩, configsOk⟩,
      nvramOk⟩, slots⟩
    exact ⟨ramWf, ramOk, romWf, ⟨nvramWf, nvramOk, windowsWf, windowsOk, configsWf, configsOk, irqWf⟩, slots⟩
  · rintro ⟨ramWf, ramOk, romWf, ⟨nvramWf, nvramOk, windowsWf, windowsOk, configsWf, configsOk, irqWf⟩, slots⟩
    exact ⟨⟨⟨⟨⟨⟨⟨⟨⟨⟨ramWf, romWf⟩, nvramWf⟩, windowsWf⟩, configsWf⟩, irqWf⟩, ramOk⟩, windowsOk⟩, configsOk⟩,
      nvramOk⟩, slots⟩

/-! ## The relation -/

/-- `t` has the ROM and the platform of `s`, and meets the invariant if `s` does. -/
structure Keeps (s t : State) : Prop where
  rom : t.rom = s.rom
  platform : t.platform = s.platform
  invariant : Invariant s → Invariant t

theorem Keeps.refl (s : State) : Keeps s s := ⟨rfl, rfl, id⟩

theorem Keeps.trans {s t u : State} (h : Keeps s t) (k : Keeps t u) : Keeps s u :=
  ⟨k.rom.trans h.rom, k.platform.trans h.platform, k.invariant ∘ h.invariant⟩

/-- A change of the SBC alone, beside what the invariant does not speak of. -/
theorem keeps_of_sbc {s t : State} (hram : t.ram = s.ram) (hrom : t.rom = s.rom) (hp : t.platform = s.platform)
    (hsbc : SbcInvariant s.sbc s.platform → SbcInvariant t.sbc s.platform) : Keeps s t := by
  refine ⟨hrom, hp, fun h => ⟨hram ▸ h.ramWf, ?_, hrom ▸ h.romWf, hp ▸ hsbc h.sbc, hp ▸ h.slots⟩⟩
  rw [State.ramOk, hram, hp]
  exact h.ramOk

/-- A change of registers only, of the model's own counters, of lines and latches. -/
theorem keeps_of_same {s t : State} (hram : t.ram = s.ram) (hrom : t.rom = s.rom) (hp : t.platform = s.platform)
    (hsbc : t.sbc = s.sbc) : Keeps s t :=
  keeps_of_sbc hram hrom hp fun h => hsbc ▸ h

/-- An exception entry writes memory only as an access does. -/
theorem keeps_of_entry {s t : State} (h : EntryStep s t) : Keeps s t := by
  obtain ⟨hfields, hramWf, hramOk⟩ := h
  have hrom : t.rom = s.rom := by rw [hfields]
  have hp : t.platform = s.platform := by rw [hfields]
  have hsbc : t.sbc = s.sbc := by rw [hfields]
  refine ⟨hrom, hp, fun h => ⟨hramWf h.ramWf, hramOk h.ramOk, hrom ▸ h.romWf, ?_, hp ▸ h.slots⟩⟩
  rw [hsbc, hp]
  exact h.sbc

theorem keeps_of_memory {s t : State} (h : MemoryStep s t) : Keeps s t := keeps_of_entry h.entry

theorem raiseFault_keeps (s : State) (e : FaultCause) : Keeps s (s.raiseFault e) := keeps_of_entry (raiseFault_entry s e)

theorem setReg_keeps (s : State) (r : Reg) (v : Word) : Keeps s (s.setReg r v) := keeps_of_same rfl rfl rfl rfl

theorem setPair_keeps (s : State) (p : Pair) (v : DWord) : Keeps s (s.setPair p v) := keeps_of_same rfl rfl rfl rfl

theorem setSp_keeps (s : State) (v : Word) : Keeps s (s.setSp v) := keeps_of_same (by simp) (by simp) (by simp) (by simp)

theorem branchIf_keeps {n : Nat} (s : State) (c : Bool) (i : BitVec n) : Keeps s (s.branchIf c i) :=
  keeps_of_same (by simp) (by simp) (by simp) (by simp)

theorem setRegs_keeps : ∀ (rs : List Reg) (vs : List Word) (s : State), Keeps s (s.setRegs rs vs)
  | [], _, s => Keeps.refl s
  | _ :: _, [], s => Keeps.refl s
  | r :: rs, v :: vs, s => (setReg_keeps s r v).trans (setRegs_keeps rs vs (s.setReg r v))

/-! ## Accesses -/

/-- A sequence of two operations keeps what both parts keep. -/
theorem bind_keeps {α β : Type} {s : State} {x : Access α} {f : α → State → Access β} (hx : MemoryStep s (final x))
    (hf : ∀ a t, Keeps t (final (f a t))) : Keeps s (final (x.bind f)) := by
  cases x with
  | done a t => exact (keeps_of_memory hx).trans (hf a t)
  | abort e t => exact keeps_of_memory hx

theorem settle_keeps {s : State} {x : Access Unit} (h : Keeps s (final x)) : Keeps s x.settle := by
  cases x with
  | done _ t => exact h
  | abort e t => exact h.trans (raiseFault_keeps t e)

theorem ifSupervisor_keeps {s : State} {x : Access Unit} (h : Keeps s (final x)) : Keeps s (final (s.ifSupervisor x)) := by
  unfold State.ifSupervisor
  split
  · exact Keeps.refl s
  · exact h

theorem loadWord_keeps {s : State} {x : Access Word} (d : Reg) (h : MemoryStep s (final x)) :
    Keeps s (final (x.loadWord d)) :=
  bind_keeps h fun _ _ => keeps_of_same rfl rfl rfl rfl

theorem loadByte_keeps {s : State} {x : Access Byte} (d : Reg) (h : MemoryStep s (final x)) :
    Keeps s (final (x.loadByte d)) :=
  bind_keeps h fun _ _ => keeps_of_same rfl rfl rfl rfl

theorem modifyWord_keeps (s : State) (va : Word) (change : Word → Word) (old c : Word → Bool) :
    Keeps s (final ((s.modifyWord va change).bind fun w t => .done () (t.setBitFlags (old w) (c w)))) :=
  bind_keeps (modifyWord_memory s va change) fun _ _ => keeps_of_same rfl rfl rfl rfl

theorem stash_keeps (s : State) (values : List Word) : Keeps s (final (s.stash values)) :=
  bind_keeps (pushWords_memory _ values s s.sp) fun sp t => setSp_keeps t sp

theorem restore_keeps (s : State) (rs : List Reg) : Keeps s (final (s.restore rs)) :=
  bind_keeps (popWords_memory _ rs.length s s.sp) fun values t => (setRegs_keeps rs values t).trans (setSp_keeps _ _)

theorem loadEntry_keeps (s : State) (byIndex : Bool) (p : Pair) (m : Reg) : Keeps s (final (s.loadEntry byIndex p m)) :=
  ifSupervisor_keeps <| bind_keeps (userEntry_memory s byIndex _) fun addr t =>
    (keeps_of_memory (physRead4_memory t addr)).trans (setPair_keeps _ p _)

theorem storeEntry_keeps (s : State) (byIndex : Bool) (p : Pair) (m : Reg) : Keeps s (final (s.storeEntry byIndex p m)) :=
  ifSupervisor_keeps <| bind_keeps (userEntry_memory s byIndex _) fun addr t =>
    keeps_of_memory (physWrite4_memory t addr _)

/-! ## The System Bus Controller -/

theorem rangesMeet_comm (a la b lb : Nat) : rangesMeet a la b lb = rangesMeet b lb a la := by
  rw [Bool.eq_iff_iff]
  simp only [rangesMeet, Bool.and_eq_true, decide_eq_true_eq]
  omega

theorem meetsOtherWindow_eq_false_iff (windows : List (Nat × Window)) (k : Nat) (w : Window) :
    meetsOtherWindow windows k w = false ↔
      ∀ e ∈ windows, e.1 ≠ k → rangesMeet w.start w.bytes e.2.start e.2.bytes = false := by
  simp [meetsOtherWindow]

theorem windowsOk_iff (c : Sbc) (p : Platform) :
    c.windowsOk p = true ↔
      ∀ e ∈ c.windows, p.windowAccepted e.1 e.2 = true ∧ p.meetsMemory e.2.start e.2.bytes = false ∧
        meetsOtherWindow c.windows e.1 e.2 = false := by
  simp [Sbc.windowsOk, and_assoc]

/-- A window that HWQ $11 places (R526, U8): accepted, and apart from memory and from the other slots' windows. -/
theorem setWindow_invariant {s : State} {k : Nat} {w : Window} (h : SbcInvariant s.sbc s.platform)
    (haccepted : s.platform.windowAccepted k w = true) (hfree : s.windowOverlaps k w = false) :
    SbcInvariant { s.sbc with windows := sparseSet noWindow s.sbc.windows k w } s.platform := by
  obtain ⟨hmemory, hother⟩ := Bool.or_eq_false_iff.1 hfree
  rw [meetsOtherWindow_eq_false_iff] at hother
  have hold := (windowsOk_iff s.sbc s.platform).1 h.windowsOk
  refine { h with
    windowsWf := sparseSet_wf noWindow s.sbc.windows k w h.windowsWf
    windowsOk := (windowsOk_iff _ _).2 fun e he => ?_ }
  have hset := fun d => mem_sparseSet noWindow s.sbc.windows k w d
  rcases hset e he with rfl | hmem
  · refine ⟨haccepted, hmemory, (meetsOtherWindow_eq_false_iff _ _ _).2 fun d hd hne => ?_⟩
    rcases hset d hd with rfl | hd
    · exact absurd rfl hne
    · exact hother d hd hne
  · obtain ⟨heAccepted, heMemory, heOther⟩ := hold e hmem
    refine ⟨heAccepted, heMemory, (meetsOtherWindow_eq_false_iff _ _ _).2 fun d hd hne => ?_⟩
    rcases hset d hd with rfl | hd
    · rw [rangesMeet_comm]; exact hother e hmem hne.symm
    · exact (meetsOtherWindow_eq_false_iff _ _ _).1 heOther d hd hne

/-- A configuration put for a present slot (R528). -/
theorem setConfig_invariant {c : Sbc} {p : Platform} {k : Nat} (v : BitVec 4) (h : SbcInvariant c p)
    (hpresent : p.present k = true) : SbcInvariant { c with configs := sparseSet 0#4 c.configs k v } p := by
  refine { h with
    configsWf := sparseSet_wf 0#4 c.configs k v h.configsWf
    configsOk := List.all_eq_true.2 fun e he => ?_ }
  rcases mem_sparseSet 0#4 c.configs k v e he with rfl | hmem
  · exact hpresent
  · exact List.all_eq_true.1 h.configsOk e hmem

/-- A byte written below the NVRAM's size (R531). -/
theorem writeNvram_invariant {s : State} (v : Byte) (h : SbcInvariant s.sbc s.platform) (hhas : s.nvramHas = true) :
    SbcInvariant { s.sbc with nvram := s.sbc.nvram.write s.nvramOffset v } s.platform := by
  refine { h with
    nvramWf := Memory.write_wf _ _ v h.nvramWf
    nvramOk := List.all_eq_true.2 fun e he => ?_ }
  rcases mem_sparseSet unlistedByte s.sbc.nvram s.nvramOffset v e he with rfl | hmem
  · exact hhas
  · exact List.all_eq_true.1 h.nvramOk e hmem

/-! ## Outcomes -/

/-- A next state of `o`, if there is one, keeps what `s` has. -/
def OutcomeKeeps (s : State) (o : Host.Outcome State Fault Refusal) : Prop := ∀ t, o = .next t → Keeps s t

theorem next_keeps {s t : State} (h : Keeps s t) : OutcomeKeeps s (.next t) := by
  intro u hu
  cases hu
  exact h

theorem refused_keeps (s : State) (r : Refusal) : OutcomeKeeps s (.refused r) := by
  intro u hu
  cases hu

theorem OutcomeKeeps.after {s t : State} {o : Host.Outcome State Fault Refusal} (h : Keeps s t) (k : OutcomeKeeps t o) :
    OutcomeKeeps s o := fun u hu => h.trans (k u hu)

/-- An instruction that writes registers only. -/
theorem registers_keeps {s t : State} (hram : t.ram = s.ram) (hrom : t.rom = s.rom) (hp : t.platform = s.platform)
    (hsbc : t.sbc = s.sbc) : OutcomeKeeps s (.next t) := next_keeps (keeps_of_same hram hrom hp hsbc)

/-- An instruction made of accesses. -/
theorem access_keeps {s : State} {x : Access Unit} (h : Keeps s (final x)) : OutcomeKeeps s (.next x.settle) :=
  next_keeps (settle_keeps h)

/-! ## HWQ -/

theorem hwqDescribe_keeps (s : State) : Keeps s s.hwqDescribe := by
  unfold State.hwqDescribe
  split <;> exact keeps_of_same rfl rfl rfl rfl

theorem hwqMessage_keeps (s : State) : Keeps s s.hwqMessage := by
  unfold State.hwqMessage
  split <;> exact keeps_of_same rfl rfl rfl rfl

theorem hwqReadWindow_keeps (s : State) : Keeps s s.hwqReadWindow := by
  unfold State.hwqReadWindow
  split <;> exact keeps_of_same rfl rfl rfl rfl

theorem hwqWriteWindow_keeps (s : State) : OutcomeKeeps s s.hwqWriteWindow := by
  unfold State.hwqWriteWindow
  dsimp only
  split
  next haccepted =>
    split
    next => exact refused_keeps s _
    next hfree =>
      exact next_keeps (keeps_of_sbc rfl rfl rfl fun hsbc =>
        setWindow_invariant hsbc haccepted (Bool.not_eq_true _ ▸ hfree))
  next => exact registers_keeps rfl rfl rfl rfl

theorem hwqReadConfig_keeps (s : State) : Keeps s s.hwqReadConfig := by
  unfold State.hwqReadConfig
  split <;> exact setReg_keeps s _ _

theorem hwqWriteConfig_keeps (s : State) : Keeps s s.hwqWriteConfig := by
  unfold State.hwqWriteConfig
  split
  next h =>
    have hpresent : s.platform.present s.slot = true := (Bool.and_eq_true _ _ ▸ h).1
    exact keeps_of_sbc rfl rfl rfl fun hsbc => setConfig_invariant _ hsbc hpresent
  next => exact setReg_keeps s _ _

theorem hwqClock_keeps (s : State) : Keeps s s.hwqClock := by
  unfold State.hwqClock
  split <;> exact keeps_of_same rfl rfl rfl rfl

theorem hwqNvramSize_keeps (s : State) : Keeps s s.hwqNvramSize := by
  unfold State.hwqNvramSize
  split <;> exact keeps_of_same rfl rfl rfl rfl

theorem hwqNvramWrite_keeps (s : State) : Keeps s s.hwqNvramWrite := by
  unfold State.hwqNvramWrite
  split
  next h =>
    simp only [Bool.and_eq_true] at h
    obtain ⟨⟨hhas, -⟩, -⟩ := h
    exact keeps_of_sbc rfl rfl rfl fun hsbc => writeNvram_invariant _ hsbc hhas
  next => exact setReg_keeps s _ _

theorem hwqNvramRead_keeps (s : State) : Keeps s s.hwqNvramRead := by
  unfold State.hwqNvramRead
  split <;> exact keeps_of_same rfl rfl rfl rfl

theorem execHwq_keeps (op : BitVec 6) (s : State) : OutcomeKeeps s (execHwq op s) := by
  unfold execHwq
  split
  · exact next_keeps (raiseFault_keeps s _)
  · split
    · exact registers_keeps rfl rfl rfl rfl
    · exact registers_keeps rfl rfl rfl rfl
    · exact next_keeps (hwqDescribe_keeps s)
    · exact next_keeps (hwqMessage_keeps s)
    · exact next_keeps (hwqReadWindow_keeps s)
    · exact hwqWriteWindow_keeps s
    · exact next_keeps (hwqReadConfig_keeps s)
    · exact next_keeps (hwqWriteConfig_keeps s)
    · exact next_keeps (hwqClock_keeps s)
    · exact next_keeps (hwqNvramSize_keeps s)
    · exact next_keeps (hwqNvramWrite_keeps s)
    · exact next_keeps (hwqNvramRead_keeps s)
    · exact next_keeps (raiseFault_keeps s _)

/-! ## Instructions with a refusal or a fault of their own -/

theorem execDiv_keeps (p : Pair) (m n : Reg) (s : State) : OutcomeKeeps s (execDiv p m n s) := by
  unfold execDiv
  split
  · exact next_keeps (raiseFault_keeps s _)
  · exact registers_keeps rfl rfl rfl rfl

theorem execDvi_keeps (p : Pair) (m n : Reg) (s : State) : OutcomeKeeps s (execDvi p m n s) := by
  unfold execDvi
  split
  · exact next_keeps (raiseFault_keeps s _)
  · split <;> exact registers_keeps rfl rfl rfl rfl

theorem execRti_keeps (s : State) : OutcomeKeeps s (execRti s) := by
  unfold execRti State.returnFromInterrupt
  split
  · exact next_keeps (raiseFault_keeps s _)
  · have hpops := keeps_of_memory (popFrame_memory s)
    cases hframe : s.popFrame with
    | abort e t =>
      rw [hframe] at hpops
      exact next_keeps (hpops.trans (raiseFault_keeps t e))
    | done frame t =>
      rw [hframe] at hpops
      refine OutcomeKeeps.after hpops ?_
      dsimp only
      split
      · exact registers_keeps rfl rfl rfl rfl
      · exact refused_keeps t _

theorem execMrs_keeps (d : Reg) (idx : BitVec 5) (s : State) : OutcomeKeeps s (execMrs d idx s) := by
  unfold execMrs
  split
  · exact next_keeps (raiseFault_keeps s _)
  · split <;> exact registers_keeps rfl rfl rfl rfl

theorem writeSpecial_keeps (s : State) (r : Special) (v : Word) (w : DWord) : OutcomeKeeps s (s.writeSpecial r v w) := by
  cases r with
  | ps =>
    unfold State.writeSpecial
    dsimp only
    split
    · exact registers_keeps rfl rfl rfl rfl
    · exact refused_keeps s _
  | _ => exact registers_keeps rfl rfl rfl rfl

theorem execMsr_keeps (d : Reg) (idx : BitVec 5) (s : State) : OutcomeKeeps s (execMsr d idx s) := by
  unfold execMsr
  split
  · exact next_keeps (raiseFault_keeps s _)
  · exact writeSpecial_keeps s _ _ _

theorem commitSpecial_keeps (s : State) (mask : BitVec 4) (sp : Word) (words : List Word) :
    OutcomeKeeps s (s.commitSpecial mask sp words) := by
  unfold State.commitSpecial
  dsimp only
  refine OutcomeKeeps.after (setSp_keeps s ((takeIf (mask.getLsbD 3) words).1.getD sp)) ?_
  split
  · exact registers_keeps rfl rfl rfl rfl
  · split
    · exact registers_keeps rfl rfl rfl rfl
    · exact refused_keeps _ _

theorem execStrSpecial_keeps (mask : BitVec 4) (s : State) : OutcomeKeeps s (execStrSpecial mask s) := by
  unfold execStrSpecial
  dsimp only
  generalize (selectDescending mask () () () ()).length = count
  have hpops := keeps_of_memory (popWords_memory s.ps.mode count s s.sp)
  cases hwords : s.popWords s.ps.mode s.sp count with
  | abort e t =>
    rw [hwords] at hpops
    exact next_keeps (hpops.trans (raiseFault_keeps t e))
  | done words t =>
    rw [hwords] at hpops
    exact OutcomeKeeps.after hpops (commitSpecial_keeps t _ _ _)

/-! ## Every instruction -/

theorem exec_keeps (i : Instr) (s : State) : OutcomeKeeps s (exec i s) := by
  cases i with
  | add | adc | sub | sbc | mul | mli | addImm | adcImm | subImm | sbcImm | btt | btx | btc | bts | mviL | mviH | mov
  | rexSb | rexUb | revB | revT | notReg | andReg | orrReg | eorReg | neg | cmpReg | cmpImm | lslReg | lslImm | lsrReg
  | lsrImm | asrReg | asrImm | rnlReg | rnlImm | rnrReg | rnrImm | rolReg | rolImm | rorReg | rorImm | nop | sfv | cfv
  | sfc | cfc | sfz | cfz | sfn | cfn | jmp => exact registers_keeps rfl rfl rfl rfl
  | bvs | bvc | bcs | bcc | beq | bne | bmi | bpl | bra => exact next_keeps (branchIf_keeps s _ _)
  | div p m n => exact execDiv_keeps p m n s
  | dvi p m n => exact execDvi_keeps p m n s
  | bttM => exact access_keeps (bind_keeps (readWordAs_memory s _ _ _) fun _ _ => keeps_of_same rfl rfl rfl rfl)
  | btxM | btcM | btsM => exact access_keeps (modifyWord_keeps s _ _ _ _)
  | lodReg | lodImm | lodPc | lodSp => exact access_keeps (loadWord_keeps _ (readWordAs_memory s _ _ _))
  | lodBReg | lodBImm => exact access_keeps (loadByte_keeps _ (readByteAs_memory s _ _))
  | stoReg | stoImm | stoPc | stoSp => exact access_keeps (keeps_of_memory (writeWordAs_memory s _ _ _))
  | stoBReg | stoBImm => exact access_keeps (keeps_of_memory (writeByteAs_memory s _ _ _))
  | lou => exact access_keeps (ifSupervisor_keeps (loadWord_keeps _ (readWordAs_memory s _ _ _)))
  | louB => exact access_keeps (ifSupervisor_keeps (loadByte_keeps _ (readByteAs_memory s _ _)))
  | sou => exact access_keeps (ifSupervisor_keeps (keeps_of_memory (writeWordAs_memory s _ _ _)))
  | souB => exact access_keeps (ifSupervisor_keeps (keeps_of_memory (writeByteAs_memory s _ _ _)))
  | stsLow | stsHigh | stsSpecial => exact access_keeps (stash_keeps s _)
  | strLow | strHigh => exact access_keeps (restore_keeps s _)
  | strSpecial mask => exact execStrSpecial_keeps mask s
  | stx => exact next_keeps (setSp_keeps s _)
  | brk | swi => exact next_keeps (keeps_of_entry (takeInterrupt_entry s _ _))
  | rti => exact execRti_keeps s
  | slp => exact access_keeps (ifSupervisor_keeps (keeps_of_same rfl rfl rfl rfl))
  | rts =>
    exact access_keeps (bind_keeps (readWordAs_memory s _ _ _) fun _ t =>
      (setSp_keeps t _).trans (keeps_of_same rfl rfl rfl rfl))
  | jsr =>
    exact access_keeps (bind_keeps (pushWords_memory _ _ s _) fun sp t =>
      (setSp_keeps t sp).trans (keeps_of_same rfl rfl rfl rfl))
  | mrs d idx => exact execMrs_keeps d idx s
  | msr d idx => exact execMsr_keeps d idx s
  | hwq op => exact execHwq_keeps op s
  | ptlV p m => exact access_keeps (loadEntry_keeps s false p m)
  | ptlI p m => exact access_keeps (loadEntry_keeps s true p m)
  | ptsV p m => exact access_keeps (storeEntry_keeps s false p m)
  | ptsI p m => exact access_keeps (storeEntry_keeps s true p m)

/-! ## The boundary: inputs, entries, Reset -/

theorem applyEvent_keeps (s : State) (e : Event) : Keeps s (s.applyEvent e) := by
  cases e with
  | irqLine slot asserted =>
    exact keeps_of_sbc rfl rfl rfl fun h => { h with irqWf := sparseSet_wf false s.sbc.irq slot asserted h.irqWf }
  | clock | nvramProtect | nvramFail => exact keeps_of_sbc rfl rfl rfl fun h => { h with }
  | resetLine | debugLine => exact keeps_of_same rfl rfl rfl rfl

theorem applyEvents_keeps : ∀ (events : List Event) (s : State), Keeps s (events.foldl State.applyEvent s)
  | [], s => Keeps.refl s
  | e :: events, s => (applyEvent_keeps s e).trans (applyEvents_keeps events (s.applyEvent e))

theorem takeInputs_keeps (s : State) : Keeps s s.takeInputs := by
  unfold State.takeInputs
  split
  · exact Keeps.refl s
  · refine Keeps.trans ?_ (applyEvents_keeps _ _)
    exact keeps_of_same rfl rfl rfl rfl

theorem idleTick_keeps (s : State) : Keeps s s.idleTick := keeps_of_same rfl rfl rfl rfl

theorem interruptStep_keeps (s : State) (i : Interrupt) (cause : Word) : Keeps s (s.interruptStep i cause) := by
  have hawake : Keeps s { s with asleep := false } := keeps_of_same rfl rfl rfl rfl
  exact (hawake.trans (keeps_of_entry (takeInterrupt_entry _ i cause))).trans (idleTick_keeps _)

theorem fillRam_wf (p : Platform) :
    ∀ (bytes : List (Nat × Byte)) (ram : Memory), ram.wf = true → (fillRam p ram bytes).wf = true
  | [], _, h => h
  | (a, v) :: rest, ram, h => by
    unfold fillRam
    split
    · exact fillRam_wf p rest _ (Memory.write_wf ram a v h)
    · exact fillRam_wf p rest ram h

/-- RAM filled by Reset lists only RAM addresses (R108). -/
theorem mem_fillRam (p : Platform) (e : Nat × Byte) :
    ∀ (bytes : List (Nat × Byte)) (ram : Memory), e ∈ fillRam p ram bytes →
      e ∈ ram ∨ (e.1 < 2 ^ 32 ∧ p.isRam e.1 = true)
  | [], _, h => .inl h
  | (a, v) :: rest, ram, h => by
    unfold fillRam at h
    split at h
    next hram =>
      rcases mem_fillRam p e rest _ h with hwrite | hok
      · rcases mem_sparseSet unlistedByte ram a v e hwrite with rfl | hmem
        · exact .inr (by simpa using hram)
        · exact .inl hmem
      · exact .inr hok
    next => exact mem_fillRam p e rest ram h

theorem placeConfigs_invariant (p : Platform) :
    ∀ (list : List (Nat × BitVec 4)) (c : Sbc), SbcInvariant c p →
      SbcInvariant { c with configs := placeConfigs p c.configs list } p
  | [], _, h => h
  | (k, v) :: rest, c, h => by
    unfold placeConfigs
    split
    next hpresent => exact placeConfigs_invariant p rest _ (setConfig_invariant v h hpresent)
    next => exact placeConfigs_invariant p rest c h

/-- Every window that Reset places is one that HWQ $11 would place (log 47). -/
theorem placeWindows_keeps : ∀ (list : List (Nat × Window)) (s : State), Keeps s (placeWindows s list)
  | [], s => Keeps.refl s
  | (k, w) :: rest, s => by
    unfold placeWindows
    split
    next h =>
      obtain ⟨haccepted, hfree⟩ := (Bool.and_eq_true _ _).mp h
      refine Keeps.trans ?_ (placeWindows_keeps rest _)
      exact keeps_of_sbc rfl rfl rfl fun hsbc => setWindow_invariant hsbc haccepted ((Bool.not_eq_true' _).mp hfree)
    next => exact placeWindows_keeps rest s

/-- Reset leaves RAM, windows and configurations free within what the invariant asks (R561). -/
theorem forget_keeps (s : State) : Keeps s s.forget := by
  unfold State.forget
  refine Keeps.trans ?_ (placeWindows_keeps _ _)
  refine ⟨rfl, rfl, fun h => ?_⟩
  have hcleared : SbcInvariant { s.sbc with windows := [], configs := [] } s.platform :=
    { h.sbc with windowsWf := rfl, windowsOk := rfl, configsWf := rfl, configsOk := rfl }
  refine ⟨fillRam_wf _ _ _ Memory.wf_nil, List.all_eq_true.2 fun e he => ?_, h.romWf,
    placeConfigs_invariant _ _ _ hcleared, h.slots⟩
  simpa using mem_fillRam _ _ _ _ he

theorem loadPc_keeps (s : State) (a : DWord) : Keeps s { (s.physRead2 a).2 with pc := (s.physRead2 a).1 } :=
  (keeps_of_memory (physRead2_memory s a)).trans (keeps_of_same rfl rfl rfl rfl)

theorem resetSequence_keeps (s : State) : Keeps s s.resetSequence := by
  unfold State.resetSequence
  dsimp only
  refine (forget_keeps s).trans (Keeps.trans ?_ (loadPc_keeps _ 0x0000FFE0#32))
  exact keeps_of_same rfl rfl rfl rfl

/-! ## Every step -/

theorem chargeCycles_keeps {s : State} (i : Instr) {o : Host.Outcome State Fault Refusal} (h : OutcomeKeeps s o) :
    OutcomeKeeps s (chargeCycles i o) := by
  cases o with
  | next t => exact next_keeps ((h t rfl).trans (keeps_of_same rfl rfl rfl rfl))
  | fault f => cases f
  | refused r => exact refused_keeps s r

theorem runWord_keeps (s : State) (w : Word) : OutcomeKeeps s (s.runWord w) := by
  have hadvance : Keeps s s.advance := keeps_of_same rfl rfl rfl rfl
  unfold State.runWord
  split
  · exact next_keeps ((hadvance.trans (raiseFault_keeps _ _)).trans (idleTick_keeps _))
  · exact OutcomeKeeps.after hadvance (chargeCycles_keeps _ (exec_keeps _ _))

theorem runNext_keeps (s : State) : OutcomeKeeps s s.runNext := by
  have hfetch : Keeps s (final (s.fetch s.pc)) := keeps_of_memory (readWordAs_memory s _ _ _)
  cases h : s.fetch s.pc with
  | abort e t =>
    rw [h] at hfetch
    rw [runNext_of_fetch_abort h]
    exact next_keeps ((hfetch.trans (raiseFault_keeps t e)).trans (idleTick_keeps _))
  | done w t =>
    rw [h] at hfetch
    rw [runNext_of_fetch_done h]
    exact OutcomeKeeps.after hfetch (runWord_keeps t w)

theorem step_keeps (s : State) : OutcomeKeeps s (step s) := by
  refine OutcomeKeeps.after (takeInputs_keeps s) ?_
  unfold step State.cycle
  dsimp only
  cases s.takeInputs.boundary with
  | reset => exact next_keeps (resetSequence_keeps _)
  | debugQuery =>
    have hlatch : Keeps s.takeInputs { s.takeInputs with debugLatch := false } := keeps_of_same rfl rfl rfl rfl
    exact next_keeps (hlatch.trans (interruptStep_keeps _ _ _))
  | timer => exact next_keeps (interruptStep_keeps _ _ _)
  | hwi slot => exact next_keeps (interruptStep_keeps _ _ _)
  | sleep => exact next_keeps (idleTick_keeps _)
  | run => exact runNext_keeps _

/-- Settles O57: every step keeps the invariant, part by part. -/
theorem stepKeepsInv : Obligations.StepKeepsInv := by
  intro s t hinv hstep
  rw [inv_iff] at hinv ⊢
  exact (step_keeps s t hstep).invariant hinv

/-- Settles O59: the same relation, for ROM and the platform; no invariant is asked of the state. -/
theorem romFixed : Obligations.RomFixed :=
  fun s t hstep => ⟨(step_keeps s t hstep).rom, (step_keeps s t hstep).platform⟩

end Sys2Proof.Proofs
end

section
/-! PROOFS. Physical memory: what an address is, and what reads and writes of it do, in the terms of O55. -/

namespace Sys2Proof.Proofs

open Sys2Proof.Machine Sys2Proof.Laws

/-! ## RAM, ROM and windows of the platform -/

/-- ROM below 64 KiB, where it is not RAM, by its extent (R113). -/
theorem lowRomStart_le_iff (p : Platform) {n : Nat} (h : n < 0x10000) :
    p.lowRomStart ≤ n ↔ 0xC000 ≤ n ∧ 0x10000 ≤ n + p.lowRom := by
  unfold Platform.lowRomStart
  omega

theorem any_covers_iff (l : List Region) (n : Nat) :
    l.any (Region.covers · n) = true ↔ ∃ r ∈ l, r.base ≤ n ∧ n < r.base + r.size := by
  simp [Region.covers]

theorem isRam_iff (p : Platform) (n : Nat) :
    p.isRam n = true ↔
      if n < 0x10000 then n < 0x8000 ∧ n < p.lowRam else ∃ r ∈ p.highRam, r.base ≤ n ∧ n < r.base + r.size := by
  unfold Platform.isRam
  split
  · simp
  · exact any_covers_iff _ _

theorem isRom_iff (p : Platform) (n : Nat) :
    p.isRom n = true ↔
      ¬p.isRam n = true ∧
        if n < 0x10000 then 0xC000 ≤ n ∧ 0x10000 ≤ n + p.lowRom
        else ∃ r ∈ p.highRom, r.base ≤ n ∧ n < r.base + r.size := by
  unfold Platform.isRom
  cases p.isRam n with
  | true => simp
  | false =>
    by_cases hlow : n < 0x10000
    · simp [hlow, lowRomStart_le_iff p hlow]
    · simp [hlow, Region.covers]

theorem covers_iff (w : Window) (n : Nat) : w.covers n = true ↔ w.start ≤ n ∧ n < w.start + w.bytes := by
  simp [Window.covers]

/-! ## Windows by slot -/

/-- A slot's entry in canonical contents is what the slot holds. -/
theorem sparseGet_of_mem {α : Type} [DecidableEq α] {dflt : α} {k : Nat} {v : α} :
    ∀ {m : List (Nat × α)} {low : Nat}, sparseWfFrom dflt low m = true → (k, v) ∈ m →
      low ≤ k ∧ sparseGet dflt m k = v
  | (j, w) :: rest, low, hwf, hmem => by
    simp only [sparseWfFrom, Bool.and_eq_true, decide_eq_true_eq] at hwf
    obtain ⟨⟨hlow, -⟩, hrest⟩ := hwf
    rcases List.mem_cons.1 hmem with heq | hmem
    · cases heq
      exact ⟨hlow, if_pos rfl⟩
    · obtain ⟨hlt, hget⟩ := sparseGet_of_mem hrest hmem
      exact ⟨by omega, (if_neg (by omega)).trans hget⟩

/-- What a slot holds, where it is not the default, is listed. -/
theorem mem_of_sparseGet_ne {α : Type} {dflt : α} {k : Nat} :
    ∀ {m : List (Nat × α)}, sparseGet dflt m k ≠ dflt → (k, sparseGet dflt m k) ∈ m
  | [], h => absurd rfl h
  | (j, w) :: rest, h => by
    unfold sparseGet at h ⊢
    split
    next heq => exact heq ▸ List.mem_cons_self
    next hne =>
      rw [if_neg hne] at h
      exact List.mem_cons_of_mem _ (mem_of_sparseGet_ne h)

theorem windowSlotAt_some {a k : Nat} :
    ∀ {l : List (Nat × Window)}, windowSlotAt l a = some k → ∃ w, (k, w) ∈ l ∧ w.covers a = true
  | (j, w) :: rest, h => by
    unfold windowSlotAt at h
    split at h
    next hcovers =>
      cases h
      exact ⟨w, List.mem_cons_self, hcovers⟩
    next =>
      obtain ⟨v, hmem, hcovers⟩ := windowSlotAt_some h
      exact ⟨v, List.mem_cons_of_mem _ hmem, hcovers⟩

theorem windowSlotAt_none_iff (a : Nat) :
    ∀ l : List (Nat × Window), windowSlotAt l a = none ↔ ∀ e ∈ l, ¬e.2.covers a = true
  | [] => by simp [windowSlotAt]
  | (j, w) :: rest => by
    unfold windowSlotAt
    split
    next hcovers => simp [hcovers]
    next hcovers => simp [hcovers, windowSlotAt_none_iff a rest]

theorem noWindow_covers (a : Nat) : ¬noWindow.covers a = true := by
  have hbytes : noWindow.bytes = 0 := rfl
  rw [covers_iff]
  omega

/-- With canonical contents the routing by the list is that by the slots' windows (R525). -/
theorem window_covers_of_slotAt {c : Sbc} {a k : Nat} (hwf : sparseWf noWindow c.windows = true)
    (h : windowSlotAt c.windows a = some k) : (c.window k).covers a = true := by
  obtain ⟨w, hmem, hcovers⟩ := windowSlotAt_some h
  rw [Sbc.window, (sparseGet_of_mem hwf hmem).2]
  exact hcovers

theorem slotAt_none_iff {c : Sbc} (a : Nat) (hwf : sparseWf noWindow c.windows = true) :
    windowSlotAt c.windows a = none ↔ ∀ k, ¬(c.window k).covers a = true := by
  rw [windowSlotAt_none_iff]
  constructor
  · intro hlist k hcovers
    have hset : c.window k ≠ noWindow := fun heq => noWindow_covers a (heq ▸ hcovers)
    exact hlist _ (mem_of_sparseGet_ne hset) hcovers
  · rintro hslots ⟨k, w⟩ hmem
    have hwindow : c.window k = w := (sparseGet_of_mem hwf hmem).2
    exact hwindow ▸ hslots k

/-! ## What an address is -/

theorem kindAt_ram_iff (s : State) (a : DWord) : s.kindAt a = .ram ↔ s.platform.isRam a.toNat = true := by
  unfold State.kindAt
  split
  next h => simp [h]
  next h => split <;> [skip; split] <;> simp [h]

theorem kindAt_rom_iff (s : State) (a : DWord) : s.kindAt a = .rom ↔ s.platform.isRom a.toNat = true := by
  unfold State.kindAt
  split
  next h => simp [Platform.isRom, h]
  next =>
    split
    next h => simp [h]
    next h => split <;> simp [h]

/-- Outside RAM and ROM the windows decide (R108). -/
theorem kindAt_window_iff (s : State) (a : DWord) (k : Nat) :
    s.kindAt a = .window k ↔
      ¬s.platform.isRam a.toNat = true ∧ ¬s.platform.isRom a.toNat = true ∧
        windowSlotAt s.sbc.windows a.toNat = some k := by
  unfold State.kindAt
  split
  next h => simp [h]
  next =>
    split
    next h => simp [h]
    next h => split <;> simp_all

theorem kindAt_unconnected_iff (s : State) (a : DWord) :
    s.kindAt a = .unconnected ↔
      ¬s.platform.isRam a.toNat = true ∧ ¬s.platform.isRom a.toNat = true ∧
        windowSlotAt s.sbc.windows a.toNat = none := by
  unfold State.kindAt
  split
  next h => simp [h]
  next =>
    split
    next h => simp [h]
    next h => split <;> simp_all

/-! ## Reads -/

theorem physRead1_ram {s : State} {a : DWord} (h : s.kindAt a = .ram) : s.physRead1 a = (s.ram.read a.toNat, s) := by
  simp only [State.physRead1, State.byteAt, h]

theorem physRead1_rom {s : State} {a : DWord} (h : s.kindAt a = .rom) : s.physRead1 a = (s.rom.read a.toNat, s) := by
  simp only [State.physRead1, State.byteAt, h]

theorem physRead1_unconnected {s : State} {a : DWord} (h : s.kindAt a = .unconnected) : s.physRead1 a = (0#8, s) := by
  simp only [State.physRead1, State.byteAt, h]

theorem physRead1_window {s : State} {a : DWord} {k : Nat} (h : s.kindAt a = .window k) :
    s.physRead1 a = (Config.deviceByte s.draws, { s with draws := s.draws + 1 }) := by
  simp only [State.physRead1, h]

/-! ## Writes -/

theorem physWrite1_of_ne_ram {s : State} {a : DWord} (v : Byte) (h : s.kindAt a ≠ .ram) : s.physWrite1 a v = s := by
  cases hkind : s.kindAt a with
  | ram => exact absurd hkind h
  | rom | window | unconnected => simp only [State.physWrite1, hkind]

/-- A byte outside a range is none of the range's bytes. -/
theorem ne_of_not_inRange {a b : DWord} {n i : Nat} (h : ¬InRange a n b) (hi : i < n) : b ≠ a + BitVec.ofNat 32 i := by
  rintro rfl
  refine h (lt_of_le_of_lt ?_ hi)
  rw [BitVec.add_comm, BitVec.add_sub_cancel]
  exact Nat.mod_le i _

/-- A value is its high bits above its low bits. -/
theorem extract_append_extract {m n : Nat} (x : BitVec (m + n)) : x.extractLsb' n m ++ x.extractLsb' 0 n = x := by
  have hhigh : x.toNat / 2 ^ n < 2 ^ m := by
    rw [Nat.div_lt_iff_lt_mul (Nat.two_pow_pos n), ← Nat.pow_add]; exact x.isLt
  apply BitVec.eq_of_toNat_eq
  rw [toNat_append_eq_mul_add]
  simpa [Nat.shiftRight_eq_div_pow, Nat.mod_eq_of_lt hhigh] using Nat.div_add_mod' x.toNat (2 ^ n)

theorem physWrite1_wf {s : State} (a : DWord) (v : Byte) (h : s.ram.wf = true) : (s.physWrite1 a v).ram.wf = true :=
  (physWrite1_memory s a v).2.1 h

theorem physWrite1_kindAt (s : State) (a b : DWord) (v : Byte) : (s.physWrite1 a v).kindAt b = s.kindAt b :=
  same_kindAt (physWrite1_memory s a v).1 b

theorem physWrite2_kindAt (s : State) (a b : DWord) (v : Word) : (s.physWrite2 a v).kindAt b = s.kindAt b :=
  same_kindAt (physWrite2_memory s a v).1 b

theorem ramWord_iff (s : State) (a : DWord) : s.ramWord a = true ↔ s.kindAt a = .ram ∧ s.kindAt (a + 1#32) = .ram := by
  simp [State.ramWord]

theorem physWrite2_ramWord (s : State) (a b : DWord) (v : Word) : (s.physWrite2 a v).ramWord b = s.ramWord b := by
  simp only [State.ramWord, physWrite2_kindAt]

theorem byteAt_physWrite2_low {s : State} {a : DWord} (v : Word) (hwf : s.ram.wf = true) (h : s.ramWord a = true) :
    (s.physWrite2 a v).byteAt a = v.extractLsb' 0 8 := by
  obtain ⟨hlow, -⟩ := (ramWord_iff s a).1 h
  have hne : a ≠ a + 1#32 := by simp
  rw [State.physWrite2, byteAt_physWrite1_of_ne _ _ _ _ hne, byteAt_physWrite1_ram s a _ hwf hlow]

theorem byteAt_physWrite2_high {s : State} {a : DWord} (v : Word) (hwf : s.ram.wf = true) (h : s.ramWord a = true) :
    (s.physWrite2 a v).byteAt (a + 1#32) = v.extractLsb' 8 8 := by
  obtain ⟨-, hhigh⟩ := (ramWord_iff s a).1 h
  exact byteAt_physWrite1_ram _ _ _ (physWrite1_wf a _ hwf) ((physWrite1_kindAt s a _ _).trans hhigh)

theorem byteAt_physWrite2_of_ne (s : State) {a b : DWord} (v : Word) (hlow : b ≠ a) (hhigh : b ≠ a + 1#32) :
    (s.physWrite2 a v).byteAt b = s.byteAt b := by
  rw [State.physWrite2, byteAt_physWrite1_of_ne _ _ _ _ hhigh, byteAt_physWrite1_of_ne _ _ _ _ hlow]

/-- A word written to RAM reads back (R100). -/
theorem wordAt_physWrite2 {s : State} {a : DWord} (v : Word) (hwf : s.ram.wf = true) (h : s.ramWord a = true) :
    (s.physWrite2 a v).wordAt a = v := by
  rw [State.wordAt, byteAt_physWrite2_low v hwf h, byteAt_physWrite2_high v hwf h]
  exact extract_append_extract (m := 8) (n := 8) v

/-- A word written above another leaves it. -/
theorem wordAt_physWrite2_above (s : State) (a : DWord) (v : Word) :
    (s.physWrite2 (a + 2#32) v).wordAt a = s.wordAt a := by
  have hnext : a + 2#32 + 1#32 = a + 3#32 := BitVec.add_assoc a _ _
  have hlow : (s.physWrite2 (a + 2#32) v).byteAt a = s.byteAt a :=
    byteAt_physWrite2_of_ne s v (by simp) (by simp [hnext])
  have hhigh : (s.physWrite2 (a + 2#32) v).byteAt (a + 1#32) = s.byteAt (a + 1#32) :=
    byteAt_physWrite2_of_ne s v (by simp) (by simp [hnext])
  rw [State.wordAt, hlow, hhigh, State.wordAt]

/-- A 32-bit value is a word above a word (R101). -/
theorem dwordAt_eq (s : State) (a : DWord) : s.dwordAt a = s.wordAt (a + 2#32) ++ s.wordAt a := by
  have hnext : a + 2#32 + 1#32 = a + 3#32 := BitVec.add_assoc a _ _
  rw [State.dwordAt, State.wordAt, State.wordAt, append_four_bytes, hnext]

theorem wordAt_physWrite4_low {s : State} {a : DWord} (w : DWord) (hwf : s.ram.wf = true) (h : s.ramWord a = true) :
    (s.physWrite4 a w).wordAt a = w.extractLsb' 0 16 := by
  rw [State.physWrite4, wordAt_physWrite2_above, wordAt_physWrite2 _ hwf h]

/-- A 32-bit value written to RAM reads back (R101). -/
theorem dwordAt_physWrite4 {s : State} {a : DWord} (w : DWord) (hwf : s.ram.wf = true) (hlow : s.ramWord a = true)
    (hhigh : s.ramWord (a + 2#32) = true) : (s.physWrite4 a w).dwordAt a = w := by
  have hwf' : (s.physWrite2 a (w.extractLsb' 0 16)).ram.wf = true := (physWrite2_memory s a _).2.1 hwf
  have hhigh' : (s.physWrite4 a w).wordAt (a + 2#32) = w.extractLsb' 16 16 :=
    wordAt_physWrite2 _ hwf' (by rw [physWrite2_ramWord, hhigh])
  rw [dwordAt_eq, hhigh', wordAt_physWrite4_low w hwf hlow]
  exact extract_append_extract (m := 16) (n := 16) w

theorem physWrite1_sameBytesOutside (s : State) (a : DWord) (v : Byte) :
    SameBytesOutside s (s.physWrite1 a v) (InRange a 1) := fun b hb =>
  byteAt_physWrite1_of_ne s a b v (by simpa using ne_of_not_inRange hb (i := 0) (by decide))

theorem physWrite2_sameBytesOutside (s : State) (a : DWord) (v : Word) :
    SameBytesOutside s (s.physWrite2 a v) (InRange a 2) := fun b hb =>
  byteAt_physWrite2_of_ne s v (by simpa using ne_of_not_inRange hb (i := 0) (by decide))
    (ne_of_not_inRange hb (i := 1) (by decide))

theorem physWrite4_sameBytesOutside (s : State) (a : DWord) (w : DWord) :
    SameBytesOutside s (s.physWrite4 a w) (InRange a 4) := by
  intro b hb
  have hnext : a + 2#32 + 1#32 = a + 3#32 := BitVec.add_assoc a _ _
  have hout := fun {i : Nat} => ne_of_not_inRange hb (i := i)
  rw [State.physWrite4,
    byteAt_physWrite2_of_ne _ _ (hout (i := 2) (by decide)) (by rw [hnext]; exact hout (i := 3) (by decide)),
    byteAt_physWrite2_of_ne _ _ (by simpa using hout (i := 0) (by decide)) (hout (i := 1) (by decide))]

/-! ## Translation and physical memory, whole -/

/-- Settles O54: each case of a translation is a lemma of its own. -/
theorem translation : Obligations.Translation := by
  intro s p k va
  exact ⟨⟨rfl, rfl⟩, translate_mmuOff p k va, translate_of_allows, translate_of_denies, translateWord_of_odd p k,
    translateWord_of_even p k⟩

/-- Settles O55: the kinds of address by the platform and the windows, then writes and reads by kind. -/
theorem physicalMemory : Obligations.PhysicalMemory := by
  intro s a v w hwf n high isRam isRom inWindow
  have hram : s.platform.isRam n = true ↔ isRam := isRam_iff s.platform n
  have hrom : s.platform.isRom n = true ↔ ¬isRam ∧ isRom := by rw [← hram]; exact isRom_iff s.platform n
  have hneither : ¬s.platform.isRam n = true ∧ ¬s.platform.isRom n = true ↔ ¬isRam ∧ ¬isRom := by
    rw [hram, hrom]; tauto
  have hwindow : ∀ k, (s.sbc.window k).covers n = true ↔ inWindow k := fun k => covers_iff _ n
  refine ⟨(kindAt_ram_iff s a).trans hram, (kindAt_rom_iff s a).trans hrom, fun hwindows => ⟨fun k hk => ?_, ?_⟩,
    fun h => ⟨wordAt_physWrite2 v hwf h, ?_, ?_⟩, fun h b => byteAt_physWrite1_ram s a b hwf h,
    fun hlow hhigh => ⟨dwordAt_physWrite4 w hwf hlow hhigh, wordAt_physWrite4_low w hwf hlow⟩,
    fun b => physWrite1_sameBytesOutside s a b, physWrite2_sameBytesOutside s a v, physWrite4_sameBytesOutside s a w,
    fun b h => physWrite1_of_ne_ram b h, physRead1_ram, physRead1_rom, physRead1_unconnected,
    fun k h => ⟨_, physRead1_window h⟩, physRead2_own s a, physRead4_own s a⟩
  · obtain ⟨hnotRam, hnotRom, hslot⟩ := (kindAt_window_iff s a k).1 hk
    obtain ⟨hnotRam, hnotRom⟩ := hneither.1 ⟨hnotRam, hnotRom⟩
    exact ⟨hnotRam, hnotRom, (hwindow k).1 (window_covers_of_slotAt hwindows hslot)⟩
  · rw [kindAt_unconnected_iff, slotAt_none_iff _ hwindows, ← and_assoc, hneither, and_assoc]
    exact and_congr_right fun _ => and_congr_right fun _ => forall_congr' fun k => not_congr (hwindow k)
  · rw [byteAt_physWrite2_low v hwf h]; rfl
  · rw [byteAt_physWrite2_high v hwf h, ← Nat.shiftRight_eq_div_pow v.toNat 8]; rfl

end Sys2Proof.Proofs
end

section
/-! PROOFS. The encoding: decoder and encoder undo each other, format by format, and the reserved words are those of R190 and
R191. -/

namespace Sys2Proof.Proofs

open Sys2Proof.Machine Sys2Proof.Laws

/-! ## Words put together from fields -/

/-- Two fields of a word, the low one first. -/
theorem append_eq_iff {a b : Nat} {x : BitVec a} {y : BitVec b} {w : BitVec (a + b)} :
    x ++ y = w ↔ w.extractLsb' 0 b = y ∧ w.extractLsb' b a = x := by
  constructor
  · rintro rfl
    exact ⟨BitVec.extractLsb'_append_eq_right, BitVec.extractLsb'_append_eq_left⟩
  · rintro ⟨rfl, rfl⟩
    exact BitVec.extractLsb'_append_extractLsb'

/-- A field of a word as two fields. -/
theorem extract_eq_append_iff {a b N s : Nat} {x : BitVec a} {y : BitVec b} {w : BitVec N} :
    w.extractLsb' s (a + b) = x ++ y ↔ w.extractLsb' s b = y ∧ w.extractLsb' (s + b) a = x := by
  have hparts : w.extractLsb' (s + b) a ++ w.extractLsb' s b = w.extractLsb' s (a + b) :=
    BitVec.extractLsb'_append_extractLsb'_eq_extractLsb' rfl
  rw [eq_comm, append_eq_iff, ← hparts, BitVec.extractLsb'_append_eq_right, BitVec.extractLsb'_append_eq_left]

theorem append3_eq_iff {a b c : Nat} {x : BitVec a} {y : BitVec b} {z : BitVec c} {w : BitVec (a + b + c)} :
    x ++ y ++ z = w ↔ w.extractLsb' 0 c = z ∧ w.extractLsb' c b = y ∧ w.extractLsb' (c + b) a = x :=
  append_eq_iff.trans (and_congr_right' extract_eq_append_iff)

theorem append4_eq_iff {a b c e : Nat} {x : BitVec a} {y : BitVec b} {z : BitVec c} {u : BitVec e}
    {w : BitVec (a + b + c + e)} :
    x ++ y ++ z ++ u = w ↔
      w.extractLsb' 0 e = u ∧ w.extractLsb' e c = z ∧ w.extractLsb' (e + c) b = y ∧ w.extractLsb' (e + c + b) a = x :=
  append_eq_iff.trans (and_congr_right' (extract_eq_append_iff.trans (and_congr_right' extract_eq_append_iff)))

theorem append5_eq_iff {a b c e f : Nat} {x : BitVec a} {y : BitVec b} {z : BitVec c} {u : BitVec e} {v : BitVec f}
    {w : BitVec (a + b + c + e + f)} :
    x ++ y ++ z ++ u ++ v = w ↔
      w.extractLsb' 0 f = v ∧ w.extractLsb' f e = u ∧ w.extractLsb' (f + e) c = z ∧ w.extractLsb' (f + e + c) b = y ∧
        w.extractLsb' (f + e + c + b) a = x :=
  append_eq_iff.trans (and_congr_right' (extract_eq_append_iff.trans (and_congr_right'
    (extract_eq_append_iff.trans (and_congr_right' extract_eq_append_iff)))))

/-- A field inside a field whose value is known. -/
theorem extract_of_extract_eq {N s k : Nat} {w : BitVec N} {x : BitVec k} (h : w.extractLsb' s k = x) (s' k' : Nat)
    (hs : s ≤ s') (hk : s' + k' ≤ s + k) : w.extractLsb' s' k' = x.extractLsb' (s' - s) k' := by
  subst h
  ext i hi
  have hlt : s' - s + i < k := by omega
  have hadd : s + (s' - s + i) = s' + i := by omega
  simp [hlt, hadd]

/-- A bit inside a field whose value is known. -/
theorem getElem_of_extract_eq {N s k : Nat} {w : BitVec N} {x : BitVec k} (h : w.extractLsb' s k = x) (i : Nat)
    (hi : i < N) (hs : s ≤ i) (hk : i < s + k) : w[i] = x.getLsbD (i - s) := by
  subst h
  have hlt : i - s < k := by omega
  have hadd : s + (i - s) = i := by omega
  simp [hlt, hadd, ← BitVec.getLsbD_eq_getElem]

/-- A field as a number: its high part above its low part. -/
theorem toNat_extract_add {N : Nat} (w : BitVec N) (s a b : Nat) :
    (w.extractLsb' s (a + b)).toNat = (w.extractLsb' (s + b) a).toNat * 2 ^ b + (w.extractLsb' s b).toNat := by
  rw [← toNat_append_eq_mul_add, BitVec.extractLsb'_append_extractLsb'_eq_extractLsb' rfl]

theorem toNat_extract {N : Nat} (w : BitVec N) (s k : Nat) : (w.extractLsb' s k).toNat = w.toNat / 2 ^ s % 2 ^ k := by
  rw [BitVec.extractLsb'_toNat, Nat.shiftRight_eq_div_pow]

theorem toNat_fieldM (w : Word) : (fieldM w).toNat = w.toNat / 8 % 8 := toNat_extract w 3 3

theorem getLsbD_eq_decide {N : Nat} (w : BitVec N) (i : Nat) : w.getLsbD i = decide (w.toNat / 2 ^ i % 2 = 1) :=
  Nat.testBit_eq_decide_div_mod_eq

theorem extract_eq_of_toNat {N s k : Nat} {w : BitVec N} {x : BitVec k} (h : w.toNat / 2 ^ s % 2 ^ k = x.toNat) :
    w.extractLsb' s k = x :=
  BitVec.eq_of_toNat_eq ((toNat_extract w s k).trans h)

/-- A word from its opcode and its one field. -/
theorem append_field {a b : Nat} {x : BitVec a} {w : BitVec (a + b)} (h : w.toNat / 2 ^ b % 2 ^ a = x.toNat) :
    x ++ w.extractLsb' 0 b = w :=
  append_eq_iff.2 ⟨rfl, extract_eq_of_toNat h⟩

/-- A word from its opcode and its two fields. -/
theorem append_fields2 {a b c : Nat} {x : BitVec a} {w : BitVec (a + b + c)}
    (h : w.toNat / 2 ^ (c + b) % 2 ^ a = x.toNat) : x ++ w.extractLsb' c b ++ w.extractLsb' 0 c = w :=
  append3_eq_iff.2 ⟨rfl, rfl, extract_eq_of_toNat h⟩

/-- A word from its opcode and its three register fields. -/
theorem append_fields3 {x : BitVec 7} {w : Word} (h : w.toNat / 2 ^ 9 % 2 ^ 7 = x.toNat) :
    x ++ fieldN w ++ fieldM w ++ fieldD w = w :=
  append4_eq_iff.2 ⟨rfl, rfl, rfl, extract_eq_of_toNat h⟩

/-! ## Decoding an encoded instruction -/

/-- Bits 7:4 select BRK by their upper two; the lower two belong to its immediate (R177). -/
theorem decodeStackFunction_brk {w : Word} (h : w.extractLsb' 6 2 = 2#2) :
    decodeStackFunction w = .ok (.brk (w.extractLsb' 0 6)) := by
  have hlow : (w.extractLsb' 4 2).toNat < 4 := (w.extractLsb' 4 2).isLt
  have hadd : (w.extractLsb' 4 4).toNat = (w.extractLsb' 6 2).toNat * 2 ^ 2 + (w.extractLsb' 4 2).toNat :=
    toNat_extract_add w 4 2 2
  rw [h] at hadd
  obtain h | h | h | h : (w.extractLsb' 4 4).toNat = 8 ∨ (w.extractLsb' 4 4).toNat = 9 ∨
      (w.extractLsb' 4 4).toNat = 10 ∨ (w.extractLsb' 4 4).toNat = 11 := by
    simp only [BitVec.toNat_ofNat, Nat.reducePow, Nat.reduceMod, Nat.reduceMul] at hadd; omega
  all_goals simp only [decodeStackFunction, h]

/-- Bits 7:5 select HWQ by their upper two; the lowest belongs to its immediate (R179). -/
theorem decodeJumpQuery_hwq {w : Word} (h : w.extractLsb' 6 2 = 1#2) :
    decodeJumpQuery w = .ok (.hwq (w.extractLsb' 0 6)) := by
  have hadd := toNat_extract_add w 5 2 1
  obtain hlow | hlow := BitVec.eq_zero_or_eq_one (w.extractLsb' 5 1)
  all_goals
    rw [h, hlow] at hadd
    simp only [decodeJumpQuery, hadd]
    rfl

/-- Format by format (R162 to R183): the encoded word's opcode and operands are fields of it, and each bit group the decoder
selects by lies inside the opcode. Only for three-register logic, BRK and HWQ does it reach one or two bits further, into
an operand. -/
theorem decode_encode (i : Instr) : decode (encode i) = .ok i := by
  generalize hw : encode i = w
  cases i with
  | add | adc | sub | sbc | lodBReg | lodBImm | lodReg | lodImm | stoBReg | stoBImm | stoReg | stoImm =>
    obtain ⟨hd, hm, hn, hop⟩ := append4_eq_iff.1 hw
    simp [decode, decodeMath, decodeLoad, decodeStore, fieldD, fieldM, fieldN, extract_of_extract_eq hop, hd, hm, hn]
  | mul | mli | div | dvi =>
    obtain ⟨hlow, hp, hm, hn, hop⟩ := append5_eq_iff.1 hw
    simp [decode, decodeMath, fieldM, fieldN, extract_of_extract_eq hop, getElem_of_extract_eq hlow, hp, hm, hn]
  | andReg | orrReg | eorReg =>
    obtain ⟨hd, hm, hn, hop⟩ := append4_eq_iff.1 hw
    have hadd := toNat_extract_add w 8 3 1
    rw [extract_of_extract_eq hop (8 + 1) 3 (by decide) (by decide)] at hadd
    obtain hlow | hlow := BitVec.eq_zero_or_eq_one (w.extractLsb' 8 1)
    all_goals
      rw [hlow] at hadd
      simp [-BitVec.extractLsb'_toNat, decode, decodeAlu, fieldD, fieldM, fieldN, extract_of_extract_eq hop, hadd, hd,
        hm, hn]
  | btt | bttM | btx | btxM | btc | btcM | bts | btsM | mviL | mviH | lodPc | lodSp | stoPc | stoSp =>
    obtain ⟨hd, hi, hop⟩ := append3_eq_iff.1 hw
    simp [decode, decodeMath, decodeMoveImm, decodeLoad, decodeStore, fieldD, extract_of_extract_eq hop,
      getElem_of_extract_eq hop, hd, hi]
  | lslReg | lslImm | rolReg | rolImm | rnlReg | rnlImm | asrReg | asrImm | lsrReg | lsrImm | rorReg | rorImm | rnrReg
  | rnrImm | cmpReg | cmpImm | addImm | adcImm | subImm | sbcImm | mov | neg | notReg =>
    obtain ⟨hd, hm, hop⟩ := append3_eq_iff.1 hw
    simp [decode, decodeAlu, decodeShift, decodeTwoReg, fieldD, fieldM, extract_of_extract_eq hop, hd, hm]
  | rexSb | rexUb | revB | revT =>
    obtain ⟨hd, hop⟩ := append_eq_iff.1 hw
    simp [decode, decodeAlu, decodeTwoReg, fieldD, fieldM, extract_of_extract_eq hop, hd]
  | mrs | msr | louB | lou | souB | sou | ptlV | ptlI | ptsV | ptsI =>
    obtain ⟨hlow, hmid, hop⟩ := append3_eq_iff.1 hw
    simp [decode, decodeControl, decodeJumpQuery, fieldD, fieldM, extract_of_extract_eq hop, getElem_of_extract_eq hop,
      hlow, hmid]
  | stsLow | stsHigh | stsSpecial | strLow | strHigh | strSpecial | jmp | jsr | stx =>
    obtain ⟨hlow, hop⟩ := append_eq_iff.1 hw
    simp [decode, decodeControl, decodeStackFunction, decodeJumpQuery, fieldD, extract_of_extract_eq hop,
      getElem_of_extract_eq hop, hlow]
  | brk =>
    obtain ⟨hi, hop⟩ := append_eq_iff.1 hw
    have hbrk := decodeStackFunction_brk (extract_of_extract_eq hop 6 2 (by decide) (by decide))
    simp [decode, decodeControl, hbrk, extract_of_extract_eq hop, hi]
  | hwq =>
    obtain ⟨hi, hop⟩ := append_eq_iff.1 hw
    have hhwq := decodeJumpQuery_hwq (extract_of_extract_eq hop 6 2 (by decide) (by decide))
    simp [decode, decodeControl, hhwq, extract_of_extract_eq hop, hi]
  | rts | rti | swi | slp | nop | sfv | cfv | sfc | cfc | sfz | cfz | sfn | cfn => subst hw; rfl
  | bvs | bvc | bcs | bcc | beq | bne | bmi | bpl | bra =>
    obtain ⟨hi, hop⟩ := append_eq_iff.1 hw
    simp [decode, decodeBranch, extract_of_extract_eq hop, hi]

/-- Settles O1. -/
theorem decodeEncode : Obligations.DecodeEncode := decode_encode

/-! ## Encoding a decoded word

One lemma per decoder, with the bits that select the decoder as its hypothesis: each branch fixes the opcode as a number, and
the operands are the fields that the decoder read. -/

section EncodeDecode

variable {w : Word} {i : Instr}

theorem encode_of_decodeMath (hw : w.toNat / 4096 % 16 = 0) (h : decodeMath w = .ok i) : encode i = w := by
  simp only [decodeMath, toNat_extract, getLsbD_eq_decide, decide_eq_true_eq, Nat.reducePow] at h
  split at h
  case h_1 | h_2 | h_3 | h_4 =>
    cases h
    exact append_fields3 (by simp; omega)
  case h_5 | h_6 =>
    split at h
    all_goals
      cases h
      refine append5_eq_iff.2 ⟨extract_eq_of_toNat ?_, rfl, rfl, rfl, extract_eq_of_toNat ?_⟩
      all_goals simp; omega
  case h_7 | h_8 =>
    repeat' split at h
    all_goals
      cases h
      exact append_fields2 (by simp at *; omega)

theorem encode_of_decodeMoveImm (hw : w.toNat / 4096 % 16 = 1) (h : decodeMoveImm w = .ok i) : encode i = w := by
  simp only [decodeMoveImm, getLsbD_eq_decide, decide_eq_true_eq, Nat.reducePow] at h
  split at h
  all_goals
    cases h
    exact append_fields2 (by simp; omega)

theorem encode_of_decodeLoad (hw : w.toNat / 4096 % 16 = 2) (h : decodeLoad w = .ok i) : encode i = w := by
  simp only [decodeLoad, toNat_extract, Nat.reducePow] at h
  split at h
  case h_1 | h_2 | h_3 | h_4 =>
    cases h
    exact append_fields3 (by simp; omega)
  case h_5 | h_6 =>
    cases h
    exact append_fields2 (by simp; omega)
  case h_7 => cases h

theorem encode_of_decodeStore (hw : w.toNat / 4096 % 16 = 3) (h : decodeStore w = .ok i) : encode i = w := by
  simp only [decodeStore, toNat_extract, Nat.reducePow] at h
  split at h
  case h_1 | h_2 | h_3 | h_4 =>
    cases h
    exact append_fields3 (by simp; omega)
  case h_5 | h_6 =>
    cases h
    exact append_fields2 (by simp; omega)
  case h_7 => cases h

theorem encode_of_decodeShift (hw : w.toNat / 1024 % 64 = 16) (h : decodeShift w = .ok i) : encode i = w := by
  simp only [decodeShift, toNat_extract, Nat.reducePow] at h
  split at h
  all_goals
    cases h
    exact append_fields2 (by simp at *; omega)

theorem encode_of_decodeTwoReg (hw : w.toNat / 256 % 256 = 0x48) (h : decodeTwoReg w = .ok i) : encode i = w := by
  simp only [decodeTwoReg, toNat_extract, toNat_fieldM, Nat.reducePow] at h
  split at h
  case h_1 | h_2 | h_4 =>
    cases h
    exact append_fields2 (by simp at *; omega)
  case h_3 =>
    split at h
    all_goals
      cases h
      all_goals exact append_field (by simp; omega)

theorem encode_of_decodeAlu (hw : w.toNat / 4096 % 16 = 4) (h : decodeAlu w = .ok i) : encode i = w := by
  simp only [decodeAlu, toNat_extract, Nat.reducePow] at h
  split at h
  case h_1 | h_2 | h_3 | h_4 => exact encode_of_decodeShift (by omega) h
  case h_9 => exact encode_of_decodeTwoReg (by omega) h
  case h_5 | h_6 | h_7 | h_8 =>
    cases h
    exact append_fields2 (by simp; omega)
  case h_10 => cases h
  all_goals
    cases h
    exact append_fields3 (by simp at *; omega)

theorem encode_of_decodeFunction (hw : w.toNat / 64 % 1024 = 0x143) (h : decodeFunction w = .ok i) : encode i = w := by
  simp only [decodeFunction, toNat_extract, Nat.reducePow, Nat.div_one] at h
  split at h
  all_goals
    cases h
    all_goals
      refine append_eq_iff.2 ⟨extract_eq_of_toNat ?_, extract_eq_of_toNat ?_⟩
      all_goals simp; omega

theorem encode_of_decodeStackFunction (hw : w.toNat / 256 % 256 = 0x50) (h : decodeStackFunction w = .ok i) :
    encode i = w := by
  simp only [decodeStackFunction, toNat_extract, Nat.reducePow] at h
  split at h
  case h_7 | h_8 => cases h
  case h_13 => exact encode_of_decodeFunction (by simp only [imp_false] at *; omega) h
  all_goals
    cases h
    exact append_field (by simp; omega)

theorem encode_of_decodeJumpQuery (hw : w.toNat / 256 % 256 = 0x53) (h : decodeJumpQuery w = .ok i) :
    encode i = w := by
  simp only [decodeJumpQuery, toNat_extract, getLsbD_eq_decide, decide_eq_true_eq, Nat.reducePow] at h
  split at h
  case h_1 =>
    repeat' split at h
    all_goals
      cases h
      all_goals exact append_field (by simp; omega)
  case h_2 => cases h
  case h_3 | h_4 =>
    cases h
    exact append_field (by simp; omega)
  all_goals
    cases h
    exact append_fields2 (by simp at *; omega)

theorem encode_of_decodeControl (hw : w.toNat / 4096 % 16 = 5) (h : decodeControl w = .ok i) : encode i = w := by
  simp only [decodeControl, toNat_extract, getLsbD_eq_decide, decide_eq_true_eq, Nat.reducePow] at h
  split at h
  case h_1 => exact encode_of_decodeStackFunction (by omega) h
  case h_4 => exact encode_of_decodeJumpQuery (by omega) h
  case h_2 | h_3 =>
    cases h
    exact append_fields2 (by simp; omega)
  case h_5 =>
    cases h
    exact append_field (by simp; omega)
  case h_6 | h_7 =>
    repeat' split at h
    all_goals
      cases h
      all_goals exact append_fields2 (by simp; omega)
  case h_8 => cases h

theorem encode_of_decodeBranch (hw : w.toNat / 4096 % 16 = 6) (h : decodeBranch w = .ok i) : encode i = w := by
  simp only [decodeBranch, toNat_extract, Nat.reducePow] at h
  split at h
  all_goals
    cases h
    exact append_field (by simp at *; omega)

end EncodeDecode

/-- Settles O2, by the decoder that bits 15:12 select. -/
theorem encodeDecode : Obligations.EncodeDecode := by
  intro w i h
  simp only [decode, toNat_extract, Nat.reducePow] at h
  split at h
  case h_1 hw => exact encode_of_decodeMath hw h
  case h_2 hw => exact encode_of_decodeMoveImm hw h
  case h_3 hw => exact encode_of_decodeLoad hw h
  case h_4 hw => exact encode_of_decodeStore hw h
  case h_5 hw => exact encode_of_decodeAlu hw h
  case h_6 hw => exact encode_of_decodeControl hw h
  case h_7 hw => exact encode_of_decodeBranch hw h
  case h_8 =>
    cases h
    exact append_field (by simpa using ‹_›)
  case h_9 => cases h

/-! ## Reserved words

One lemma per decoder again: the words of its range that are errors. -/

theorem decodeMath_not_error (w : Word) : ¬∃ e, decodeMath w = .error e := by
  unfold decodeMath
  split <;> simp

theorem decodeShift_not_error (w : Word) : ¬∃ e, decodeShift w = .error e := by
  unfold decodeShift
  split <;> simp

theorem decodeBranch_not_error (w : Word) : ¬∃ e, decodeBranch w = .error e := by
  unfold decodeBranch
  split <;> simp

section Reserved

variable {w : Word}

theorem decodeLoad_error_iff (hw : w.toNat / 4096 % 16 = 2) :
    (∃ e, decodeLoad w = .error e) ↔ 0x2800 ≤ w.toNat ∧ w.toNat ≤ 0x2BFF := by
  have hlt := w.isLt
  simp only [decodeLoad, toNat_extract, Nat.reducePow]
  split
  all_goals simp at *; omega

theorem decodeStore_error_iff (hw : w.toNat / 4096 % 16 = 3) :
    (∃ e, decodeStore w = .error e) ↔ 0x3800 ≤ w.toNat ∧ w.toNat ≤ 0x3BFF := by
  have hlt := w.isLt
  simp only [decodeStore, toNat_extract, Nat.reducePow]
  split
  all_goals simp at *; omega

theorem decodeTwoReg_error_iff (hw : w.toNat / 256 % 256 = 0x48) :
    (∃ e, decodeTwoReg w = .error e) ↔
      (0x4890 ≤ w.toNat ∧ w.toNat ≤ 0x489F) ∨ (0x48B0 ≤ w.toNat ∧ w.toNat ≤ 0x48BF) := by
  have hlt := w.isLt
  simp only [decodeTwoReg, toNat_extract, toNat_fieldM, Nat.reducePow]
  repeat' split
  all_goals simp at *; omega

theorem decodeAlu_error_iff (hw : w.toNat / 4096 % 16 = 4) :
    (∃ e, decodeAlu w = .error e) ↔
      (0x4890 ≤ w.toNat ∧ w.toNat ≤ 0x489F) ∨ (0x48B0 ≤ w.toNat ∧ w.toNat ≤ 0x48BF) ∨
      (0x4900 ≤ w.toNat ∧ w.toNat ≤ 0x49FF) := by
  have hlt := w.isLt
  simp only [decodeAlu, toNat_extract, Nat.reducePow]
  split
  case h_1 | h_2 | h_3 | h_4 => simp only [decodeShift_not_error, false_iff]; omega
  case h_9 => rw [decodeTwoReg_error_iff (by omega)]; omega
  all_goals simp at *; omega

theorem decodeFunction_error_iff (hw : w.toNat / 64 % 1024 = 0x143) :
    (∃ e, decodeFunction w = .error e) ↔
      w.toNat = 0x50C4 ∨ w.toNat = 0x50C6 ∨ w.toNat = 0x50C7 ∨ (0x50D0 ≤ w.toNat ∧ w.toNat ≤ 0x50FF) := by
  have hlt := w.isLt
  simp only [decodeFunction, toNat_extract, Nat.reducePow, Nat.div_one]
  split
  all_goals simp at *; omega

theorem decodeStackFunction_error_iff (hw : w.toNat / 256 % 256 = 0x50) :
    (∃ e, decodeStackFunction w = .error e) ↔
      (0x5030 ≤ w.toNat ∧ w.toNat ≤ 0x503F) ∨ (0x5070 ≤ w.toNat ∧ w.toNat ≤ 0x507F) ∨
      w.toNat = 0x50C4 ∨ w.toNat = 0x50C6 ∨ w.toNat = 0x50C7 ∨ (0x50D0 ≤ w.toNat ∧ w.toNat ≤ 0x50FF) := by
  have hlt := w.isLt
  simp only [decodeStackFunction, toNat_extract, Nat.reducePow]
  split
  case h_13 =>
    simp only [imp_false] at *
    rw [decodeFunction_error_iff (by omega)]; omega
  all_goals simp at *; omega

theorem decodeJumpQuery_error_iff (hw : w.toNat / 256 % 256 = 0x53) :
    (∃ e, decodeJumpQuery w = .error e) ↔ 0x5310 ≤ w.toNat ∧ w.toNat ≤ 0x533F := by
  have hlt := w.isLt
  simp only [decodeJumpQuery, toNat_extract, getLsbD_eq_decide, decide_eq_true_eq, Nat.reducePow]
  repeat' split
  all_goals simp at *; omega

theorem decodeControl_error_iff (hw : w.toNat / 4096 % 16 = 5) :
    (∃ e, decodeControl w = .error e) ↔
      (0x5030 ≤ w.toNat ∧ w.toNat ≤ 0x503F) ∨ (0x5070 ≤ w.toNat ∧ w.toNat ≤ 0x507F) ∨
      w.toNat = 0x50C4 ∨ w.toNat = 0x50C6 ∨ w.toNat = 0x50C7 ∨ (0x50D0 ≤ w.toNat ∧ w.toNat ≤ 0x50FF) ∨
      (0x5310 ≤ w.toNat ∧ w.toNat ≤ 0x533F) ∨ (0x5500 ≤ w.toNat ∧ w.toNat ≤ 0x55FF) ∨
      (0x5680 ≤ w.toNat ∧ w.toNat ≤ 0x56FF) ∨ (0x5780 ≤ w.toNat ∧ w.toNat ≤ 0x57FF) ∨
      (0x5800 ≤ w.toNat ∧ w.toNat ≤ 0x5FFF) := by
  have hlt := w.isLt
  simp only [decodeControl, toNat_extract, getLsbD_eq_decide, decide_eq_true_eq, Nat.reducePow]
  split
  case h_1 => rw [decodeStackFunction_error_iff (by omega)]; omega
  case h_4 => rw [decodeJumpQuery_error_iff (by omega)]; omega
  case h_6 | h_7 => split <;> simp at * <;> omega
  all_goals simp at *; omega

end Reserved

/-- A reserved word raises UndefFault with PC advanced (R190, R191). -/
theorem runWord_of_reserved {s : State} {w : Word} {e : Reserved} (h : decode w = .error e) :
    s.runWord w = .next (s.advance.raiseFault .undef).idleTick := by
  simp only [State.runWord, h]

/-- Settles O3: the reserved rows by the decoder of bits 15:12, then the step through the branch its hypotheses name. -/
theorem reservedWords : Obligations.ReservedWords := by
  refine ⟨fun w => ?_, fun s t w e hrun hfetch hdecode => ?_⟩
  · have hlt := w.isLt
    simp only [decode, toNat_extract, Nat.reducePow]
    split
    case h_1 => simp only [decodeMath_not_error, false_iff]; omega
    case h_2 => simp [decodeMoveImm]; omega
    case h_3 hw => rw [decodeLoad_error_iff hw]; omega
    case h_4 hw => rw [decodeStore_error_iff hw]; omega
    case h_5 hw => rw [decodeAlu_error_iff hw]; omega
    case h_6 hw => rw [decodeControl_error_iff hw]; omega
    case h_7 => simp only [decodeBranch_not_error, false_iff]; omega
    case h_8 => simp; omega
    case h_9 => simp at *; omega
  · rw [step_of_run hrun, runNext_of_fetch_done hfetch, runWord_of_reserved hdecode]
    rfl

/-- Settles O4, by evaluating the decoder on the eighteen words. -/
theorem decodedWords : Obligations.DecodedWords := by
  unfold Obligations.DecodedWords
  decide

end Sys2Proof.Proofs
end

section
/-! PROOFS. Loads and stores: the byte accesses beside the word accesses, what an instruction of one access does by its
cases, and on these each form of LOD, STO, LOU and SOU by its effective address. -/

namespace Sys2Proof.Proofs

open Sys2Proof.Machine Sys2Proof.Laws

/-! ## Operands by the formulas of the statements -/

/-- A signed offset in words, as bytes, by its integer value (R185). -/
theorem wordOffset_eq {n : Nat} (i : BitVec n) : wordOffset i = BitVec.ofInt 16 (2 * i.toInt) :=
  (BitVec.ofInt_mul 2 i.toInt).symm

theorem eaWordImm_eq (s : State) (m : Reg) (i : BitVec 3) :
    s.eaWordImm m i = s.reg m + BitVec.ofNat 16 (2 * i.toNat) := by
  rw [State.eaWordImm, imm3, BitVec.ofNat_mul, BitVec.ofNat_toNat]

theorem eaByteImm_eq (s : State) (m : Reg) (i : BitVec 3) : s.eaByteImm m i = s.reg m + BitVec.ofNat 16 i.toNat := by
  rw [State.eaByteImm, imm3, BitVec.ofNat_toNat]

theorem eaPc_eq (s : State) (i : BitVec 6) : s.eaPc i = s.pc + BitVec.ofInt 16 (2 * i.toInt) := by
  rw [State.eaPc, wordOffset_eq]

/-- SP is the stack pointer of the mode (R45). -/
theorem sp_eq (s : State) : s.sp = if s.ps.mode = .user then s.su else s.ss := by
  cases hmode : s.ps.mode with
  | user => exact sp_of_user hmode
  | supervisor => exact sp_of_supervisor hmode

theorem eaSp_eq (s : State) (i : BitVec 6) :
    s.eaSp i = (if s.ps.mode = .user then s.su else s.ss) + BitVec.ofInt 16 (2 * i.toInt) := by
  rw [State.eaSp, wordOffset_eq, sp_eq]

/-- The low byte of a word, as a field and as a number. -/
theorem extract_low_byte (v : Word) : v.extractLsb' 0 8 = BitVec.ofNat 8 v.toNat := rfl

/-! ## Results of an instruction made of one access -/

@[simp] theorem settle_done (t : State) : (Access.done () t).settle = t := rfl
@[simp] theorem settle_abort (e : FaultCause) (t : State) : (Access.abort e t).settle = t.raiseFault e := rfl

@[simp] theorem loadWord_done (v : Word) (t : State) (d : Reg) :
    (Access.done v t).loadWord d = .done () (t.putNZ d v) := rfl
@[simp] theorem loadWord_abort (e : FaultCause) (t : State) (d : Reg) :
    (Access.abort e t).loadWord d = .abort e t := rfl
@[simp] theorem loadByte_done (b : Byte) (t : State) (d : Reg) :
    (Access.done b t).loadByte d = .done () (t.putNZ d (zeroExtendByte b)) := rfl
@[simp] theorem loadByte_abort (e : FaultCause) (t : State) (d : Reg) :
    (Access.abort e t).loadByte d = .abort e t := rfl

theorem ifSupervisor_of_user {s : State} (x : Access Unit) (h : s.ps.mode = .user) :
    s.ifSupervisor x = .abort .unpriv s := by
  simp [State.ifSupervisor, State.inUser, h]

theorem ifSupervisor_of_supervisor {s : State} (x : Access Unit) (h : s.ps.mode = .supervisor) :
    s.ifSupervisor x = x := by
  simp [State.ifSupervisor, State.inUser, h]

/-- A word into a register with N its bit 15 and Z where it is 0 (R238). -/
theorem putNZ_eq (s : State) (d : Reg) (v : Word) :
    s.putNZ d v = { s.setReg d v with ps := { s.ps with n := v.getLsbD 15, z := decide (v.toNat = 0) } } := by
  have hz : decide (v = 0#16) = decide (v.toNat = 0) := by simp [← BitVec.toNat_inj]
  rw [← hz]
  rfl

/-- A byte, zero-extended, into a register: N is cleared (R222, R238). -/
theorem putNZ_zeroExtendByte (s : State) (d : Reg) (b : Byte) :
    s.putNZ d (zeroExtendByte b) =
      { s.setReg d (BitVec.ofNat 16 b.toNat) with ps := { s.ps with n := false, z := decide (b.toNat = 0) } } := by
  have hn : (zeroExtendByte b).getLsbD 15 = false := by simp [zeroExtendByte]
  have hz : (zeroExtendByte b).toNat = b.toNat := BitVec.toNat_setWidth_of_le (by decide)
  rw [putNZ_eq, hn, hz, zeroExtendByte, BitVec.ofNat_toNat]

/-! ## The state after a translation -/

theorem touched_ps (s : State) (p : Privilege) (k : AccessKind) (va : Word) : (s.touched p k va).ps = s.ps := by
  rw [(touched_memory s p k va).1]

/-- A permitted translation writes the page table entry at most (R126). -/
theorem touched_sameBytesOutside (s : State) (p : Privilege) (k : AccessKind) (va : Word) :
    SameBytesOutside s (s.touched p k va) (s.pteBytes p va) := by
  intro a ha
  unfold State.touched
  split
  next hback =>
    obtain ⟨hmmu, -⟩ := Bool.and_eq_true_iff.1 hback
    exact physWrite4_sameBytesOutside s _ _ a fun hrange => ha ⟨hmmu, hrange⟩
  next => rfl

/-- A store after its translation changes the bytes stored to and the page table entry at most (R108, R126). -/
theorem stored_sameBytesOutside {s t : State} {p : Privilege} {ea : Word} {n : Nat}
    (h : SameBytesOutside (s.touched p .write ea) t (InRange (s.physical p ea) n)) :
    SameBytesOutside s t (s.storeBytes p ea n) := fun a ha =>
  (h a fun hrange => ha (.inl hrange)).trans
    (touched_sameBytesOutside s p .write ea a fun hentry => ha (.inr hentry))

theorem touched_kindAt (s : State) (p : Privilege) (k : AccessKind) (va : Word) (a : DWord) :
    (s.touched p k va).kindAt a = s.kindAt a :=
  same_kindAt (touched_memory s p k va).1 a

theorem touched_wf {s : State} (p : Privilege) (k : AccessKind) (va : Word) (h : s.ram.wf = true) :
    (s.touched p k va).ram.wf = true :=
  (touched_memory s p k va).2.1 h

/-! ## Byte accesses -/

theorem readByteAs_of_denies {s : State} {p : Privilege} {va : Word} (h : s.denies p .read va = true) :
    s.readByteAs p va = .abort (.page (s.pageFaultCause p .read va) va) s := by
  rw [State.readByteAs, translate_of_denies h, bind_abort]

theorem readByteAs_of_allows {s : State} {p : Privilege} {va : Word} (h : s.allows p .read va = true) :
    s.readByteAs p va =
      .done ((s.touched p .read va).physRead1 (s.physical p va)).1
        ((s.touched p .read va).physRead1 (s.physical p va)).2 := by
  rw [State.readByteAs, translate_of_allows h, bind_done]

/-- A permitted read of a byte, from memory or from a device window. -/
theorem readByteAs_some {s : State} {p : Privilege} {va : Word} (h : s.allows p .read va = true) :
    ∃ (b : Byte) (n : Nat),
      (s.ownByte (s.physical p va) = true → b = (s.touched p .read va).byteAt (s.physical p va) ∧ n = s.draws) ∧
      s.readByteAs p va = .done b { s.touched p .read va with draws := n } := by
  rw [readByteAs_of_allows h]
  cases hown : s.ownByte (s.physical p va) with
  | true =>
    have hown' : (s.touched p .read va).ownByte (s.physical p va) = true := by
      rw [State.ownByte, touched_kindAt]; exact hown
    refine ⟨_, s.draws, fun _ => ⟨rfl, rfl⟩, ?_⟩
    rw [physRead1_own _ _ hown', ← touched_draws s p .read va]
  | false =>
    obtain hstate | hstate := physRead1_state (s.touched p .read va) (s.physical p va)
    · exact ⟨_, (s.touched p .read va).draws, nofun, by rw [hstate]⟩
    · exact ⟨_, (s.touched p .read va).draws + 1, nofun, by rw [hstate]⟩

theorem writeByteAs_of_denies {s : State} {p : Privilege} {va : Word} (v : Byte) (h : s.denies p .write va = true) :
    s.writeByteAs p va v = .abort (.page (s.pageFaultCause p .write va) va) s := by
  rw [State.writeByteAs, translate_of_denies h, bind_abort]

theorem writeByteAs_of_allows {s : State} {p : Privilege} {va : Word} (v : Byte) (h : s.allows p .write va = true) :
    s.writeByteAs p va v = .done () ((s.touched p .write va).physWrite1 (s.physical p va) v) := by
  rw [State.writeByteAs, translate_of_allows h, bind_done]

/-! ## Instructions of one access

An instruction whose meaning is one access of privilege `p` at `ea` has every case the statements ask: the faults by the
access's refusals, completion by the permitted access. -/

section OneAccess

variable {i : Instr} {s : State} {p : Privilege} {ea : Word}

theorem loadsWord_of_exec {d : Reg} (h : exec i s = .next ((s.readWordAs p .read ea).loadWord d).settle) :
    LoadsWord i s p ea d := by
  refine ⟨fun hodd => ?_, fun heven hdenies => ?_,
    fun heven hallows => ⟨touched_sameBytesOutside s p .read ea, ?_⟩⟩
  · rw [h, readWordAs_of_odd p .read hodd, loadWord_abort, settle_abort]
  · rw [h, readWordAs_of_denies heven hdenies, loadWord_abort, settle_abort]
  · obtain ⟨v, n, hown, hread⟩ := readWordAs_some heven hallows
    refine ⟨v, n, hown, ?_⟩
    rw [h, hread, loadWord_done, settle_done, putNZ_eq, ← touched_ps s p .read ea]
    rfl

theorem loadsByte_of_exec {d : Reg} (h : exec i s = .next ((s.readByteAs p ea).loadByte d).settle) :
    LoadsByte i s p ea d := by
  refine ⟨fun hdenies => ?_, fun hallows => ⟨touched_sameBytesOutside s p .read ea, ?_⟩⟩
  · rw [h, readByteAs_of_denies hdenies, loadByte_abort, settle_abort]
  · obtain ⟨b, n, hown, hread⟩ := readByteAs_some hallows
    refine ⟨b, n, hown, ?_⟩
    rw [h, hread, loadByte_done, settle_done, putNZ_zeroExtendByte, ← touched_ps s p .read ea]
    rfl

theorem storesWord_of_exec {v : Word} (h : exec i s = .next (s.writeWordAs p ea v).settle) :
    StoresWord i s p ea v := by
  refine ⟨fun hodd => ?_, fun heven hdenies => ?_,
    fun heven hallows => ⟨?_, stored_sameBytesOutside (physWrite2_sameBytesOutside _ _ v), fun hwf hram => ?_⟩⟩
  · rw [h, writeWordAs_of_odd p v hodd, settle_abort]
  · rw [h, writeWordAs_of_denies v heven hdenies, settle_abort]
  · rw [h, writeWordAs_of_allows v heven hallows, settle_done]
  · refine wordAt_physWrite2 v (touched_wf p .write ea hwf) ?_
    simpa only [State.ramWord, touched_kindAt] using hram

theorem storesByte_of_exec {v : Byte} (h : exec i s = .next (s.writeByteAs p ea v).settle) :
    StoresByte i s p ea v := by
  refine ⟨fun hdenies => ?_,
    fun hallows => ⟨?_, stored_sameBytesOutside (physWrite1_sameBytesOutside _ _ v), fun hwf hram => ?_⟩⟩
  · rw [h, writeByteAs_of_denies v hdenies, settle_abort]
  · rw [h, writeByteAs_of_allows v hallows, settle_done]
  · exact byteAt_physWrite1_ram _ _ v (touched_wf p .write ea hwf) ((touched_kindAt s p .write ea _).trans hram)

/-- A privileged instruction in user mode (R541). -/
theorem exec_of_user {x : Access Unit} (h : exec i s = .next (s.ifSupervisor x).settle) (hmode : s.ps.mode = .user) :
    exec i s = .next (s.raiseFault .unpriv) := by
  rw [h, ifSupervisor_of_user x hmode, settle_abort]

/-- A privileged instruction in supervisor mode. -/
theorem exec_of_supervisor {x : Access Unit} (h : exec i s = .next (s.ifSupervisor x).settle)
    (hmode : s.ps.mode = .supervisor) : exec i s = .next x.settle := by
  rw [h, ifSupervisor_of_supervisor x hmode]

end OneAccess

/-! ## The forms

Each form's arm of `exec` is, by `rfl`, one access at the model's effective address; the lemmas above restate that address as
the statements write it. -/

/-- Settles O20: each form is one word read at its effective address. -/
theorem loadWord : Obligations.LoadWord := by
  intro s d m n imm off p offset
  refine ⟨decode_encode (.lodReg d m n), decode_encode (.lodImm d m imm), decode_encode (.lodPc d off),
    decode_encode (.lodSp d off), loadsWord_of_exec rfl, ?_, ?_, ?_⟩
  · rw [← eaWordImm_eq]; exact loadsWord_of_exec rfl
  · rw [← eaPc_eq]; exact loadsWord_of_exec rfl
  · rw [← eaSp_eq]; exact loadsWord_of_exec rfl

/-- Settles O21: each form is one byte read at its effective address. -/
theorem loadByte : Obligations.LoadByte := by
  intro s d m n imm
  refine ⟨decode_encode (.lodBReg d m n), decode_encode (.lodBImm d m imm), loadsByte_of_exec rfl, ?_⟩
  rw [← eaByteImm_eq]; exact loadsByte_of_exec rfl

/-- Settles O22: each form is one word write at its effective address. -/
theorem storeWord : Obligations.StoreWord := by
  intro s d m n imm off p offset
  refine ⟨decode_encode (.stoReg d m n), decode_encode (.stoImm d m imm), decode_encode (.stoPc d off),
    decode_encode (.stoSp d off), storesWord_of_exec rfl, ?_, ?_, ?_⟩
  · rw [← eaWordImm_eq]; exact storesWord_of_exec rfl
  · rw [← eaPc_eq]; exact storesWord_of_exec rfl
  · rw [← eaSp_eq]; exact storesWord_of_exec rfl

/-- Settles O23: each form is one write of Rd's low byte at its effective address. -/
theorem storeByte : Obligations.StoreByte := by
  intro s d m n imm low
  have hlow : (s.reg d).extractLsb' 0 8 = low := extract_low_byte (s.reg d)
  refine ⟨decode_encode (.stoBReg d m n), decode_encode (.stoBImm d m imm), ?_, ?_⟩
  · rw [← hlow]; exact storesByte_of_exec rfl
  · rw [← hlow, ← eaByteImm_eq]; exact storesByte_of_exec rfl

/-- Settles O24: in user mode the check of privilege answers; in supervisor mode each is one access with user privilege. -/
theorem userAccess : Obligations.UserAccess := by
  intro s d m
  refine ⟨decode_encode (.lou d m), decode_encode (.louB d m), decode_encode (.sou d m), decode_encode (.souB d m),
    fun hmode => ?_, fun hmode => ⟨?_, ?_, ?_, ?_⟩⟩
  · simp only [List.forall_mem_cons, List.not_mem_nil, false_implies, implies_true, and_true]
    exact ⟨exec_of_user rfl hmode, exec_of_user rfl hmode, exec_of_user rfl hmode, exec_of_user rfl hmode⟩
  · exact loadsWord_of_exec (exec_of_supervisor rfl hmode)
  · exact loadsByte_of_exec (exec_of_supervisor rfl hmode)
  · exact storesWord_of_exec (exec_of_supervisor rfl hmode)
  · rw [← extract_low_byte]; exact storesByte_of_exec (exec_of_supervisor rfl hmode)

end Sys2Proof.Proofs
end

section
/-! PROOFS. MOV, MVI.L and MVI.H: putting one octet of a word in place, by the numbers of the statement. -/

namespace Sys2Proof.Proofs

open Sys2Proof.Machine

/-! ## Words of two octets, as numbers -/

theorem append_eq_ofNat {m n : Nat} (x : BitVec m) (y : BitVec n) :
    x ++ y = BitVec.ofNat (m + n) (x.toNat * 2 ^ n + y.toNat) := by
  rw [← toNat_append_eq_mul_add, BitVec.ofNat_toNat, BitVec.setWidth_eq]

theorem toNat_high_byte (v : Word) : (v.extractLsb' 8 8).toNat = v.toNat / 256 := by
  rw [toNat_extract]
  exact Nat.mod_eq_of_lt (by omega)

theorem toNat_low_byte (v : Word) : (v.extractLsb' 0 8).toNat = v.toNat % 256 := by
  rw [toNat_extract, pow_zero, Nat.div_one]; rfl

/-- The low octet replaced, the high one kept (R241). -/
theorem replace_low_byte (v : Word) (b : Byte) :
    v.extractLsb' 8 8 ++ b = BitVec.ofNat 16 (v.toNat / 256 * 256 + b.toNat) := by
  rw [append_eq_ofNat, toNat_high_byte]; rfl

/-- The high octet replaced, the low one kept (R242). -/
theorem replace_high_byte (v : Word) (b : Byte) :
    b ++ v.extractLsb' 0 8 = BitVec.ofNat 16 (b.toNat * 256 + v.toNat % 256) := by
  rw [append_eq_ofNat, toNat_low_byte]; rfl

/-- Settles O13: each form writes Rd only, MOV with Rm's value and MVI with Rd's own word after one octet is replaced. -/
theorem moveResult : Obligations.MoveResult := by
  intro s d m imm
  refine ⟨decode_encode (.mov d m), decode_encode (.mviL d imm), decode_encode (.mviH d imm), rfl, ?_, ?_⟩
  · rw [← replace_low_byte]; rfl
  · rw [← replace_high_byte]; rfl

end Sys2Proof.Proofs
end

section
/-! PROOFS. Add, subtract, multiply and divide: results and flags by the formulas of 42_math.md, and what a fault keeps. -/

namespace Sys2Proof.Proofs

open Sys2Proof.Machine Sys2Proof.Laws

/-! ## Zero and sign -/

/-- Z of a value, by its number (R42). -/
theorem decide_eq_zero {w : Nat} (v : BitVec w) : decide (v = 0#w) = decide (v.toNat = 0) := by
  simp [← BitVec.toNat_inj]

/-- N of a word, by its signed number (R42). -/
theorem getLsbD_sign (a : Word) : a.getLsbD 15 = decide (a.toInt < 0) :=
  (BitVec.msb_eq_getLsbD_last a).symm.trans BitVec.msb_eq_toInt

theorem toInt_bounds (a : Word) : -32768 ≤ a.toInt ∧ a.toInt < 32768 := ⟨BitVec.le_toInt a, BitVec.toInt_lt⟩

theorem ofInt_sub {w : Nat} (x y : Int) : BitVec.ofInt w (x - y) = BitVec.ofInt w x - BitVec.ofInt w y := by
  rw [Int.sub_eq_add_neg, BitVec.ofInt_add, BitVec.ofInt_neg, BitVec.sub_eq_add_neg]

/-- A number less than 2^16 in size, reduced to a word, changes its sign exactly where it does not fit. -/
theorem toInt_ofInt_neg_iff {t : Int} (hlow : -65536 ≤ t) (hhigh : t < 65536) :
    (BitVec.ofInt 16 t).toInt < 0 ↔ (-32768 ≤ t ∧ t < 0) ∨ 32767 < t := by
  rw [BitVec.toInt_ofInt, Int.bmod_def]
  simp only [Nat.reducePow, Nat.cast_ofNat]
  omega

/-! ## Addition and subtraction -/

theorem sum_eq_ofInt (a b : Word) (k : Nat) : a + b + BitVec.ofNat 16 k = BitVec.ofInt 16 (a.toInt + b.toInt + k) := by
  simp only [BitVec.ofInt_add, BitVec.ofInt_toInt, BitVec.ofInt_natCast]

theorem difference_eq_ofInt (a b : Word) (k : Nat) :
    a - b - BitVec.ofNat 16 k = BitVec.ofInt 16 (a.toInt - b.toInt - k) := by
  simp only [ofInt_sub, BitVec.ofInt_toInt, BitVec.ofInt_natCast]

/-- The sign test of an addition with carry says that the exact sum does not fit (R258). -/
theorem sum_overflow_iff (a b : Word) {k : Nat} (hk : k ≤ 1) :
    (a.getLsbD 15 = b.getLsbD 15 ∧ (a + b + BitVec.ofNat 16 k).getLsbD 15 ≠ a.getLsbD 15) ↔
      a.toInt + b.toInt + k < -32768 ∨ 32767 < a.toInt + b.toInt + k := by
  have ha := toInt_bounds a
  have hb := toInt_bounds b
  have hr := toInt_ofInt_neg_iff (t := a.toInt + b.toInt + k) (by omega) (by omega)
  rw [sum_eq_ofInt]
  simp only [getLsbD_sign, ne_eq, decide_eq_decide, hr]
  omega

/-- The sign test of a subtraction with borrow says that the exact difference does not fit (R259). -/
theorem difference_overflow_iff (a b : Word) {k : Nat} (hk : k ≤ 1) :
    (a.getLsbD 15 ≠ b.getLsbD 15 ∧ (a - b - BitVec.ofNat 16 k).getLsbD 15 ≠ a.getLsbD 15) ↔
      a.toInt - b.toInt - k < -32768 ∨ 32767 < a.toInt - b.toInt - k := by
  have ha := toInt_bounds a
  have hb := toInt_bounds b
  have hr := toInt_ofInt_neg_iff (t := a.toInt - b.toInt - k) (by omega) (by omega)
  rw [difference_eq_ofInt]
  simp only [getLsbD_sign, ne_eq, decide_eq_decide, hr]
  omega

/-- The adder, by the formulas of R258. -/
theorem addFlags_eq (a b : Word) (c : Bool) :
    addFlags a b c =
      let r := a + b + BitVec.ofNat 16 c.toNat
      { value := r, n := r.getLsbD 15, z := decide (r.toNat = 0), c := decide (65536 ≤ a.toNat + b.toNat + c.toNat)
        v := decide (a.toInt + b.toInt + c.toNat < -32768 ∨ 32767 < a.toInt + b.toInt + c.toNat) } := by
  have hvalue : BitVec.ofNat 16 (a.toNat + b.toNat + c.toNat) = a + b + BitVec.ofNat 16 c.toNat := by
    simp only [BitVec.ofNat_add, BitVec.ofNat_toNat, BitVec.setWidth_eq]
  have hv := sum_overflow_iff a b c.toNat_le
  simp only [addFlags, hvalue, decide_eq_zero, ← hv, BitVec.msb_eq_getLsbD_last, AluResult.mk.injEq, true_and]
  exact ⟨rfl, by simp [bne, Bool.beq_eq_decide_eq]⟩

/-- The subtracter, by the formulas of R259: borrow is the complement of the carry, C says that there is none to take. -/
theorem subFlags_eq (a b : Word) (c : Bool) :
    subFlags a b c =
      let r := a - b - BitVec.ofNat 16 (!c).toNat
      { value := r, n := r.getLsbD 15, z := decide (r.toNat = 0), c := decide (b.toNat + (!c).toNat ≤ a.toNat)
        v := decide (a.getLsbD 15 ≠ b.getLsbD 15 ∧ r.getLsbD 15 ≠ a.getLsbD 15) } := by
  have hborrow : (1 - c.toNat : Int) = (!c).toNat := by cases c <;> rfl
  have hvalue : BitVec.ofInt 16 (a.toNat - b.toNat - (!c).toNat) = a - b - BitVec.ofNat 16 (!c).toNat := by
    simp only [ofInt_sub, BitVec.ofInt_natCast, BitVec.ofNat_toNat, BitVec.setWidth_eq]
  have hc : (0 : Int) ≤ a.toNat - b.toNat - (!c).toNat ↔ b.toNat + (!c).toNat ≤ a.toNat := by omega
  have hv := difference_overflow_iff a b (!c).toNat_le
  simp only [subFlags, hborrow, hvalue, decide_eq_zero, hc, hv, BitVec.msb_eq_getLsbD_last, Bool.decide_or]

theorem imm5i_eq (i : BitVec 5) : imm5i i = BitVec.ofNat 16 (i.toNat + 1) := by
  rw [imm5i, BitVec.ofNat_add, BitVec.ofNat_toNat]

/-- Settles O6: each form puts the adder's result, with C or no carry, into Rd. -/
theorem addResult : Obligations.AddResult := by
  intro s d m n imm result carry
  have hput : ∀ (a b : Word) (c : Bool), s.putAlu d (addFlags a b c) = result a b c.toNat := fun a b c => by
    rw [addFlags_eq]; rfl
  have hcarry : carry = s.ps.c.toNat := by cases hc : s.ps.c <;> simp [carry, hc]
  rw [hcarry, ← imm5i_eq]
  exact ⟨decode_encode (.add d m n), decode_encode (.adc d m n), decode_encode (.addImm d imm),
    decode_encode (.adcImm d imm), congrArg _ (hput _ _ false), congrArg _ (hput _ _ _), congrArg _ (hput _ _ false),
    congrArg _ (hput _ _ _)⟩

/-- Settles O7: each form puts the subtracter's result, with C or no borrow, into Rd. -/
theorem subResult : Obligations.SubResult := by
  intro s d m n imm result borrow
  have hput : ∀ (a b : Word) (c : Bool), s.putAlu d (subFlags a b c) = result a b (!c).toNat := fun a b c => by
    rw [subFlags_eq]; rfl
  have hborrow : borrow = (!s.ps.c).toNat := by cases hc : s.ps.c <;> simp [borrow, hc]
  rw [hborrow, ← imm5i_eq]
  exact ⟨decode_encode (.sub d m n), decode_encode (.sbc d m n), decode_encode (.subImm d imm),
    decode_encode (.sbcImm d imm), congrArg _ (hput _ _ true), congrArg _ (hput _ _ _), congrArg _ (hput _ _ true),
    congrArg _ (hput _ _ _)⟩

/-! ## Multiplication -/

theorem mulUnsigned_eq (a b : Word) : mulUnsigned a b = a.setWidth 32 * b.setWidth 32 := by
  rw [mulUnsigned, BitVec.ofNat_mul, BitVec.ofNat_toNat, BitVec.ofNat_toNat]

theorem mulSigned_eq (a b : Word) : mulSigned a b = a.signExtend 32 * b.signExtend 32 :=
  BitVec.ofInt_mul a.toInt b.toInt

/-- The high half of a product is not zero exactly where the product needs more than 16 bits (R260). -/
theorem high_half_ne_zero_iff (v : DWord) : v.extractLsb' 16 16 ≠ 0#16 ↔ 65536 ≤ v.toNat := by
  rw [← BitVec.toNat_ne_iff_ne, toNat_extract, BitVec.toNat_zero]
  omega

theorem putProduct_eq (s : State) (p : Pair) (v : DWord) (neg : Bool) :
    s.putProduct p v neg =
      { (s.setReg (pairLo p) (v.extractLsb' 0 16)).setReg (pairHi p) (v.extractLsb' 16 16) with
        ps := { s.ps with n := neg, z := decide (v.toNat = 0), c := decide (65536 ≤ v.toNat) } } := by
  simp only [State.putProduct, decide_eq_zero, high_half_ne_zero_iff]
  rfl

/-- Settles O8: both forms put a product into the pair; N is the sign of the signed one. -/
theorem mulResult : Obligations.MulResult := by
  intro s p m n result signed
  refine ⟨decode_encode (.mul p m n), decode_encode (.mli p m n), ?_, ?_⟩
  · rw [← mulUnsigned_eq]
    exact congrArg _ (putProduct_eq s p _ false)
  · have hsigned : mulSigned (s.reg m) (s.reg n) = signed := mulSigned_eq _ _
    rw [← hsigned, ← BitVec.msb_eq_toInt]
    exact congrArg _ (putProduct_eq s p _ _)

/-! ## What a fault keeps -/

theorem sameRegsAndFlags_trans {s t u : State} (h : SameRegsAndFlags s t) (k : SameRegsAndFlags t u) :
    SameRegsAndFlags s u := by
  obtain ⟨hregs, hn, hz, hc, hv⟩ := h
  obtain ⟨kregs, kn, kz, kc, kv⟩ := k
  exact ⟨kregs.trans hregs, kn.trans hn, kz.trans hz, kc.trans hc, kv.trans hv⟩

theorem sameRegsAndFlags_of_eq {s t : State} (hregs : t.regs = s.regs) (hps : t.ps = s.ps) : SameRegsAndFlags s t := by
  rw [SameRegsAndFlags, hregs, hps]
  exact ⟨rfl, rfl, rfl, rfl, rfl⟩

theorem sameRegsAndFlags_of_memory {s t : State} (h : MemoryStep s t) : SameRegsAndFlags s t := by
  obtain ⟨hsame, -, -⟩ := h
  exact sameRegsAndFlags_of_eq (by rw [hsame]) (by rw [hsame])

theorem bind_sameRegsAndFlags {α β : Type} {s : State} {x : Access α} {f : α → State → Access β}
    (hx : SameRegsAndFlags s (final x)) (hf : ∀ a t, SameRegsAndFlags t (final (f a t))) :
    SameRegsAndFlags s (final (x.bind f)) := by
  cases x with
  | done a t => exact sameRegsAndFlags_trans hx (hf a t)
  | abort e t => exact hx

/-- An entry, finished or aborted, stores the frame and reads the handler; of PS it sets the mode and the level (R480). -/
theorem enter_sameRegsAndFlags (s : State) (i : Interrupt) (cause : Word) (address : Option Word) :
    SameRegsAndFlags s (final (s.enter i cause address)) := by
  have hbegin : SameRegsAndFlags s (s.beginEntry i address) := ⟨rfl, rfl, rfl, rfl, rfl⟩
  refine bind_sameRegsAndFlags
    (sameRegsAndFlags_trans hbegin (sameRegsAndFlags_of_memory (pushWords_memory _ _ _ _))) fun sp t => ?_
  have hframe : SameRegsAndFlags t { t with ss := sp, ic := cause } := sameRegsAndFlags_of_eq rfl rfl
  exact bind_sameRegsAndFlags
    (sameRegsAndFlags_trans hframe (sameRegsAndFlags_of_memory (readWordAs_memory _ _ _ _))) fun _ _ =>
      sameRegsAndFlags_of_eq rfl rfl

theorem doubleFault_sameRegsAndFlags (s : State) : SameRegsAndFlags s s.doubleFault := by
  have h : SameRegsAndFlags s (final (s.drawWord.2.enter .double 0#16 (some s.drawWord.1))) :=
    enter_sameRegsAndFlags s.drawWord.2 _ _ _
  simp only [State.doubleFault]
  split
  next heq => rwa [heq] at h
  next heq => rw [heq] at h; exact h

theorem faultAddress_sameRegsAndFlags (s : State) (e : FaultCause) : SameRegsAndFlags s (s.faultAddress e).2 := by
  cases e <;> exact sameRegsAndFlags_of_eq rfl rfl

/-- A fault, whatever its level, modifies no general register and no flag (R486). -/
theorem raiseFault_sameRegsAndFlags (s : State) (e : FaultCause) : SameRegsAndFlags s (s.raiseFault e) := by
  have h := sameRegsAndFlags_trans (faultAddress_sameRegsAndFlags s e)
    (enter_sameRegsAndFlags (s.faultAddress e).2 e.interrupt (e.cause s.inUser) (some (s.faultAddress e).1))
  simp only [State.raiseFault]
  split
  next =>
    split
    next heq => rwa [heq] at h
    next heq => rw [heq] at h; exact sameRegsAndFlags_trans h (doubleFault_sameRegsAndFlags _)
  next =>
    split
    next => exact doubleFault_sameRegsAndFlags s
    next => exact sameRegsAndFlags_of_eq rfl rfl

/-! ## Division -/

theorem execDiv_of_zero {s : State} (p : Pair) (m : Reg) {n : Reg} (h : s.reg n = 0#16) :
    execDiv p m n s = .next (s.raiseFault .divZero) := if_pos h

theorem execDiv_of_divUnsigned {s : State} (p : Pair) {m n : Reg} {q r : Word} (hne : s.reg n ≠ 0#16)
    (h : divUnsigned (s.reg m) (s.reg n) = (q, r)) :
    execDiv p m n s = .next (((s.putQuotient p q r).setN false).setZ (decide (q.toNat = 0))) := by
  simp only [execDiv, if_neg hne, h, decide_eq_zero]

/-- Quotient and remainder of an unsigned division by the equation and the bound of R262. -/
theorem divUnsigned_spec (a : Word) {b : Word} (hb : b.toNat ≠ 0) :
    ∃ q r : Word, divUnsigned a b = (q, r) ∧ a.toNat = q.toNat * b.toNat + r.toNat ∧ r.toNat < b.toNat := by
  have hlt : a.toNat % b.toNat < b.toNat := Nat.mod_lt _ (Nat.pos_of_ne_zero hb)
  have hq : (divUnsigned a b).1.toNat = a.toNat / b.toNat :=
    Nat.mod_eq_of_lt ((Nat.div_le_self _ _).trans_lt a.isLt)
  have hr : (divUnsigned a b).2.toNat = a.toNat % b.toNat := Nat.mod_eq_of_lt (hlt.trans b.isLt)
  refine ⟨(divUnsigned a b).1, (divUnsigned a b).2, rfl, ?_⟩
  rw [hq, hr]
  exact ⟨(Nat.div_add_mod' _ _).symm, hlt⟩

/-- Settles O9: the test for zero comes first, before any result. -/
theorem divResult : Obligations.DivResult := by
  intro s p m n
  have hzero : (s.reg n).toNat = 0 ↔ s.reg n = 0#16 := BitVec.toNat_inj (y := 0#16)
  refine ⟨decode_encode (.div p m n), fun hn => ⟨?_, raiseFault_sameRegsAndFlags s .divZero⟩, fun hn => ?_⟩
  · exact execDiv_of_zero p m (hzero.1 hn)
  · obtain ⟨q, r, hdiv, heq, hlt⟩ := divUnsigned_spec (s.reg m) hn
    exact ⟨q, r, heq, hlt, execDiv_of_divUnsigned p (mt hzero.2 hn) hdiv⟩

/-- A truncated remainder is smaller than the divisor and has the dividend's sign (R263). -/
theorem tmod_spec (a : Int) {b : Int} (hb : b ≠ 0) :
    (a.tmod b).natAbs < b.natAbs ∧ (a.tmod b = 0 ∨ (a.tmod b < 0 ↔ a < 0)) := by
  constructor
  · rw [Int.natAbs_tmod]
    exact Nat.mod_lt _ (Int.natAbs_pos.2 hb)
  · by_cases ha : a < 0
    · have hneg : 0 ≤ (-a).tmod b := Int.tmod_nonneg b (by omega)
      rw [Int.neg_tmod] at hneg
      omega
    · have hpos : 0 ≤ a.tmod b := Int.tmod_nonneg b (by omega)
      omega

/-- A truncated quotient is no larger than the dividend, so it fits a word unless it is 32768, which only -32768 / -1 is
(R263). -/
theorem tdiv_bounds {a b : Int} (hlow : -32768 ≤ a) (hhigh : a < 32768) (hb : b ≠ 0) (hfit : ¬(a = -32768 ∧ b = -1)) :
    -32768 ≤ a.tdiv b ∧ a.tdiv b < 32768 := by
  have hsize : (a.tdiv b).natAbs ≤ a.natAbs := Int.natAbs_tdiv_le_natAbs a b
  have hne : a.tdiv b ≠ 32768 := fun hq => by
    have heq : a.tdiv b * b + a.tmod b = a := Int.tdiv_mul_add_tmod a b
    obtain ⟨hlt, -⟩ := tmod_spec a hb
    rw [hq] at heq
    omega
  omega

theorem toInt_ofInt_of_bounds {t : Int} (hlow : -32768 ≤ t) (hhigh : t < 32768) : (BitVec.ofInt 16 t).toInt = t :=
  BitVec.toInt_ofInt_eq_self (by decide) hlow hhigh

/-- Quotient and remainder of a signed division, both of which fit a word, by the equation and the bounds of R263. -/
theorem divSigned_spec (a : Word) {b : Word} (hb : b.toInt ≠ 0) (hfit : ¬(a.toInt = -32768 ∧ b.toInt = -1)) :
    ∃ q r : Word, divSigned a b = (q.toInt, r.toInt) ∧ a.toInt = q.toInt * b.toInt + r.toInt ∧
      r.toInt.natAbs < b.toInt.natAbs ∧ (r.toInt = 0 ∨ (r.toInt < 0 ↔ a.toInt < 0)) := by
  obtain ⟨halow, hahigh⟩ := toInt_bounds a
  obtain ⟨hblow, hbhigh⟩ := toInt_bounds b
  obtain ⟨hqlow, hqhigh⟩ := tdiv_bounds halow hahigh hb hfit
  obtain ⟨hlt, hsign⟩ := tmod_spec a.toInt hb
  have hq := toInt_ofInt_of_bounds hqlow hqhigh
  have hr : (BitVec.ofInt 16 (a.toInt.tmod b.toInt)).toInt = a.toInt.tmod b.toInt :=
    toInt_ofInt_of_bounds (by omega) (by omega)
  refine ⟨BitVec.ofInt 16 (a.toInt.tdiv b.toInt), BitVec.ofInt 16 (a.toInt.tmod b.toInt), ?_⟩
  rw [hq, hr]
  exact ⟨rfl, (Int.tdiv_mul_add_tmod _ _).symm, hlt, hsign⟩

theorem execDvi_of_zero {s : State} (p : Pair) (m : Reg) {n : Reg} (h : s.reg n = 0#16) :
    execDvi p m n s = .next (s.raiseFault .divZero) := if_pos h

theorem execDvi_of_overflow {s : State} (p : Pair) {m n : Reg} (hm : s.reg m = 0x8000#16) (hn : s.reg n = 0xFFFF#16) :
    execDvi p m n s =
      .next ((((s.drawWord.2.putQuotient p 0x8000#16 s.drawWord.1).setN true).setZ false).setV true) := by
  have hne : ¬s.reg n = 0#16 := by rw [hn]; decide
  rw [execDvi, if_neg hne, if_pos ⟨hm, hn⟩]

theorem execDvi_of_divSigned {s : State} (p : Pair) {m n : Reg} {q r : Word} (hne : s.reg n ≠ 0#16)
    (hfit : ¬(s.reg m = 0x8000#16 ∧ s.reg n = 0xFFFF#16))
    (h : divSigned (s.reg m) (s.reg n) = (q.toInt, r.toInt)) :
    execDvi p m n s =
      .next ((((s.putQuotient p q r).setN (decide (q.toInt < 0))).setZ (decide (q.toInt = 0))).setV false) := by
  simp only [execDvi, if_neg hne, if_neg hfit, h, BitVec.ofInt_toInt]

/-- Settles O10: the divisor 0, the one quotient that does not fit, and every other division. -/
theorem dviResult : Obligations.DviResult := by
  intro s p m n a b
  have hzero : b = 0 ↔ s.reg n = 0#16 := BitVec.toInt_inj (y := 0#16)
  have hoverflow : a = -32768 ∧ b = -1 ↔ s.reg m = 0x8000#16 ∧ s.reg n = 0xFFFF#16 :=
    and_congr (BitVec.toInt_inj (y := 0x8000#16)) (BitVec.toInt_inj (y := 0xFFFF#16))
  refine ⟨decode_encode (.dvi p m n), fun hb => ⟨?_, raiseFault_sameRegsAndFlags s .divZero⟩, fun ha hb => ?_,
    fun hb hfit => ?_⟩
  · exact execDvi_of_zero p m (hzero.1 hb)
  · obtain ⟨hm, hn⟩ := hoverflow.1 ⟨ha, hb⟩
    exact ⟨s.drawWord.1, execDvi_of_overflow p hm hn⟩
  · obtain ⟨q, r, hdiv, heq, hlt, hsign⟩ := divSigned_spec (s.reg m) hb hfit
    exact ⟨q, r, heq, hlt, hsign, execDvi_of_divSigned p (mt hzero.2 hb) (mt hoverflow.2 hfit) hdiv⟩

end Sys2Proof.Proofs
end

section
/-! PROOFS. REX and REV: bit by bit, which bit of Rd each bit of the result is. -/

namespace Sys2Proof.Proofs

open Sys2Proof.Machine

/-- Above the low octet stands its sign, bit 7 of the word (R280). -/
theorem getLsbD_signExtend_low_byte (v : Word) {j : Nat} (hj : j < 16) :
    ((v.extractLsb' 0 8).signExtend 16).getLsbD j = if j < 8 then v.getLsbD j else v.getLsbD 7 := by
  have hsign : (v.extractLsb' 0 8).msb = v.getLsbD 7 := by
    rw [BitVec.msb_eq_getLsbD_last, BitVec.getLsbD_extractLsb']; rfl
  rw [BitVec.getLsbD_signExtend, hsign, BitVec.getLsbD_extractLsb', Nat.zero_add]
  split
  next hlow => simp only [hj, hlow, decide_true, Bool.true_and]
  next => simp only [hj, decide_true, Bool.true_and]

/-- Above the low octet stand zeros (R281). -/
theorem getLsbD_zeroExtend_low_byte (v : Word) {j : Nat} (hj : j < 16) :
    ((v.extractLsb' 0 8).setWidth 16).getLsbD j = (decide (j < 8) && v.getLsbD j) := by
  simp only [BitVec.getLsbD_setWidth, BitVec.getLsbD_extractLsb', hj, decide_true, Bool.true_and, Nat.zero_add]

/-- With its octets swapped, a word's bits stand eight places on, round its 16 (R282). -/
theorem getLsbD_swap_bytes (v : Word) {j : Nat} (hj : j < 16) :
    (v.extractLsb' 0 8 ++ v.extractLsb' 8 8).getLsbD j = v.getLsbD ((j + 8) % 16) := by
  rw [BitVec.getLsbD_append]
  split
  next hlow =>
    have hplace : (j + 8) % 16 = 8 + j := by omega
    simp only [BitVec.getLsbD_extractLsb', hplace, hlow, decide_true, Bool.true_and]
  next hhigh =>
    have hplace : (j + 8) % 16 = 0 + (j - 8) := by omega
    have hlt : j - 8 < 8 := by omega
    simp only [BitVec.getLsbD_extractLsb', hplace, hlt, decide_true, Bool.true_and]

/-- In reverse order, bit 0 becomes bit 15 (R283). -/
theorem getLsbD_reverse_word (v : Word) {j : Nat} (hj : j < 16) : v.reverse.getLsbD j = v.getLsbD (15 - j) := by
  simp only [BitVec.getLsbD_reverse, BitVec.getMsbD_eq_getLsbD, hj, decide_true, Bool.true_and]

/-- Settles O14: each form writes Rd only, with the word whose bits the lemmas above name. -/
theorem extendReverse : Obligations.ExtendReverse := by
  intro s d v puts
  refine ⟨decode_encode (.rexSb d), decode_encode (.rexUb d), decode_encode (.revB d), decode_encode (.revT d),
    ?_, ?_, ?_, ?_⟩
  · exact ⟨_, fun _ => getLsbD_signExtend_low_byte v, rfl⟩
  · exact ⟨_, fun _ => getLsbD_zeroExtend_low_byte v, rfl⟩
  · exact ⟨_, fun _ => getLsbD_swap_bytes v, rfl⟩
  · exact ⟨_, fun _ => getLsbD_reverse_word v, rfl⟩

end Sys2Proof.Proofs
end

section
/-! PROOFS. Logic, negate and compare: which value each form puts into Rd, and CMP as a subtraction that keeps its flags N, Z
and C only. -/

namespace Sys2Proof.Proofs

open Sys2Proof.Machine

/-- Settles O15: each form puts a word into Rd with N and Z from it, and the word's bits are those of the bitwise
operation. -/
theorem logicResult : Obligations.LogicResult := by
  intro s d m n puts
  have hputs : ∀ {i : Instr} {bit : Nat → Bool} {r : Word}, exec i s = .next (s.putNZ d r) →
      (∀ j < 16, r.getLsbD j = bit j) → puts i bit := fun hexec hbits =>
    ⟨_, hbits, hexec.trans (congrArg _ (putNZ_eq s d _))⟩
  refine ⟨decode_encode (.andReg d m n), decode_encode (.orrReg d m n), decode_encode (.eorReg d m n),
    decode_encode (.notReg d m), ?_, ?_, ?_, ?_⟩
  · exact hputs rfl fun _ _ => BitVec.getLsbD_and
  · exact hputs rfl fun _ _ => BitVec.getLsbD_or
  · exact hputs rfl fun _ _ => BitVec.getLsbD_xor
  · exact hputs rfl fun j hj => by simp only [BitVec.getLsbD_not, hj, decide_true, Bool.true_and]

/-! ## Negate -/

theorem zero_sub_eq_ofInt (a : Word) : 0#16 - a = BitVec.ofInt 16 (-a.toInt) := by
  rw [BitVec.ofInt_neg, BitVec.ofInt_toInt, BitVec.zero_sub]

/-- V of NEG: $8000 is the one word whose negative does not fit (R294). -/
theorem eq_minimum_iff (a : Word) : a = 0x8000#16 ↔ a.toInt = -32768 :=
  BitVec.toInt_inj.symm

/-! ## Compare -/

/-- The subtraction of a compare: it borrows nothing, and Z says that the two values are equal (R295, R296). -/
theorem compareFlags_eq (s : State) (a b : Word) :
    (s.setNZ (subFlags a b true).value).setC (subFlags a b true).c =
      { s with
        ps :=
          { s.ps with
            n := (a - b).getLsbD 15
            z := decide (a.toNat = b.toNat)
            c := decide (b.toNat ≤ a.toNat) } } := by
  have hvalue : (subFlags a b true).value = a - b := by
    rw [subFlags_eq]; exact BitVec.sub_zero _
  have hc : (subFlags a b true).c = decide (b.toNat ≤ a.toNat) := by
    rw [subFlags_eq]; rfl
  have hz : decide (a - b = 0#16) = decide (a.toNat = b.toNat) := by
    rw [decide_eq_decide, BitVec.toNat_inj]
    exact sub_eq_zero
  rw [hvalue, hc, ← hz]
  rfl

/-- An unsigned 3-bit immediate, as a number (R185). -/
theorem imm3_eq (i : BitVec 3) : imm3 i = BitVec.ofNat 16 i.toNat :=
  (BitVec.ofNat_toNat ..).symm

/-- Settles O16: NEG puts the negative into Rd with N and Z from it, and V where it does not fit; both forms of CMP keep the
flags of a subtraction. -/
theorem negateCompare : Obligations.NegateCompare := by
  intro s d m n imm compared negated
  have hneg : 0#16 - s.reg m = negated := zero_sub_eq_ofInt (s.reg m)
  refine ⟨decode_encode (.neg d m), decode_encode (.cmpReg m n), decode_encode (.cmpImm m imm), ?_, ?_, ?_⟩
  · have hexec : exec (.neg d m) s = .next ((s.putNZ d (0#16 - s.reg m)).setV (decide (s.reg m = 0x8000#16))) := rfl
    rw [hexec, hneg, putNZ_eq, decide_eq_decide.2 (eq_minimum_iff _)]
    rfl
  · exact congrArg _ (compareFlags_eq s _ _)
  · rw [← imm3_eq]
    exact congrArg _ (compareFlags_eq s _ _)

end Sys2Proof.Proofs
end

section
/-! PROOFS. Shifts and rotates: the count, and each result by the formulas of 45_shift.md. The one-bit steps of ROL and
ROR are a rotation of C and Rd as one value of 17 bits. -/

namespace Sys2Proof.Proofs

open Sys2Proof.Machine

/-! ## The count -/

/-- A count taken from a register stops at 15 (R311). -/
theorem regCount_eq (v : Word) : regCount v = if 15 < v.toNat then 15 else v.toNat := by
  rw [regCount, min_comm, min_def_lt]

theorem regCount_le (v : Word) : regCount v ≤ 15 := Nat.min_le_right ..

/-- A count taken from an immediate is 1 to 8 (R310). -/
theorem immCount_le (imm : BitVec 3) : immCount imm ≤ 15 := by
  have := imm.isLt
  simp only [immCount]
  omega

/-! ## Shifts -/

/-- A word into a register with N, Z and the given C: V stays (R312, R313). -/
theorem putNZC_eq (s : State) (d : Reg) (v : Word) (c : Bool) :
    s.putNZC d v c =
      { s.setReg d v with ps := { s.ps with n := v.getLsbD 15, z := decide (v.toNat = 0), c := c } } := by
  rw [State.putNZC, putNZ_eq]
  rfl

/-- LSL multiplies by a power of two; a bit is lost where the product needs more than 16 bits (R312). -/
theorem shiftLeft_eq (v : Word) {x : Nat} (hx : x ≤ 15) :
    shiftLeft v x = (BitVec.ofNat 16 (v.toNat * 2 ^ x), decide (65536 ≤ v.toNat * 2 ^ x)) := by
  have hvalue : v <<< x = BitVec.ofNat 16 (v.toNat * 2 ^ x) := by
    rw [← Nat.shiftLeft_eq]; rfl
  have hsplit : 65536 = 2 ^ (16 - x) * 2 ^ x := by rw [← Nat.pow_add, Nat.sub_add_cancel (by omega)]
  have hlost : v >>> (16 - x) ≠ 0#16 ↔ 65536 ≤ v.toNat * 2 ^ x := by
    rw [hsplit, Nat.mul_le_mul_right_iff (Nat.two_pow_pos x), ← BitVec.toNat_ne_iff_ne, BitVec.toNat_ushiftRight,
      Nat.shiftRight_eq_div_pow, BitVec.toNat_zero, Nat.div_ne_zero_iff]
    simp
  have hpos : 65536 ≤ v.toNat * 2 ^ x → 0 < x := by
    intro h
    refine Nat.pos_of_ne_zero fun h0 => ?_
    rw [h0] at h
    exact absurd v.isLt (by omega)
  simp only [shiftLeft, hvalue, hlost, and_iff_right_of_imp hpos]

/-- The bits that a right shift loses are the remainder of a division by a power of two (R313, R314). -/
theorem lostRight_eq (v : Word) (x : Nat) : lostRight v x = decide (v.toNat % 2 ^ x ≠ 0) := by
  have hpos : v.toNat % 2 ^ x ≠ 0 → 0 < x := fun h =>
    Nat.pos_of_ne_zero fun h0 => h (by rw [h0, Nat.pow_zero, Nat.mod_one])
  rw [lostRight, decide_eq_decide.2 (and_iff_right_of_imp hpos)]

/-- LSR divides the unsigned value (R313). -/
theorem shiftRight_eq (v : Word) (x : Nat) :
    shiftRight v x = (BitVec.ofNat 16 (v.toNat / 2 ^ x), decide (v.toNat % 2 ^ x ≠ 0)) := by
  have hvalue : v >>> x = BitVec.ofNat 16 (v.toNat / 2 ^ x) := by
    rw [← Nat.shiftRight_eq_div_pow, ← BitVec.toNat_ushiftRight, BitVec.ofNat_toNat, BitVec.setWidth_eq]
  rw [shiftRight, hvalue, lostRight_eq]

/-- ASR divides the signed value, rounding down (R314). -/
theorem shiftArith_eq (v : Word) (x : Nat) :
    shiftArith v x = (BitVec.ofInt 16 (v.toInt / 2 ^ x), decide (v.toNat % 2 ^ x ≠ 0)) := by
  rw [shiftArith, lostRight_eq, BitVec.sshiftRight, Int.shiftRight_eq_div_pow]
  rfl

/-- V of ASR: the quotient is -1 and the value was not (R314). -/
theorem arithOverflow_eq (v : Word) (x : Nat) :
    arithOverflow v (BitVec.ofInt 16 (v.toInt / 2 ^ x)) = decide (v.toInt ≠ -1 ∧ v.toInt / 2 ^ x = -1) := by
  have hones : ∀ w : Word, w = 0xFFFF#16 ↔ w.toInt = -1 := fun w => BitVec.toInt_inj.symm
  have hquotient : (BitVec.ofInt 16 (v.toInt / 2 ^ x)).toInt = v.toInt / 2 ^ x := by
    have h := BitVec.toInt_sshiftRight (x := v) (n := x)
    rwa [BitVec.sshiftRight, Int.shiftRight_eq_div_pow] at h
  simp only [arithOverflow, hones, hquotient, Bool.decide_and, ne_eq]

/-- Settles O17: at every count of the two forms, the shifts of the model are those of the statement. -/
theorem shiftResult : Obligations.ShiftResult := by
  intro s d m imm
  rw [← regCount_eq]
  intro v counts put
  have hlsl : ∀ {x : Nat}, x ≤ 15 → s.putNZC d (shiftLeft v x).1 (shiftLeft v x).2 =
      put (BitVec.ofNat 16 (v.toNat * 2 ^ x)) (decide (65536 ≤ v.toNat * 2 ^ x)) s.ps.v := by
    intro x hx
    rw [shiftLeft_eq v hx]
    exact putNZC_eq ..
  have hlsr : ∀ x : Nat, s.putNZC d (shiftRight v x).1 (shiftRight v x).2 =
      put (BitVec.ofNat 16 (v.toNat / 2 ^ x)) (decide (v.toNat % 2 ^ x ≠ 0)) s.ps.v := by
    intro x
    rw [shiftRight_eq]
    exact putNZC_eq ..
  have hasr : ∀ x : Nat,
      (s.putNZC d (shiftArith v x).1 (shiftArith v x).2).setV (arithOverflow v (shiftArith v x).1) =
        put (BitVec.ofInt 16 (v.toInt / 2 ^ x)) (decide (v.toNat % 2 ^ x ≠ 0))
          (decide (v.toInt ≠ -1 ∧ v.toInt / 2 ^ x = -1)) := by
    intro x
    rw [shiftArith_eq, arithOverflow_eq, putNZC_eq]
    rfl
  refine ⟨decode_encode (.lslReg d m), decode_encode (.lslImm d imm), decode_encode (.lsrReg d m),
    decode_encode (.lsrImm d imm), decode_encode (.asrReg d m), decode_encode (.asrImm d imm), ?_, ?_, ?_⟩
  · exact ⟨congrArg _ (hlsl (regCount_le _)), congrArg _ (hlsl (immCount_le imm))⟩
  · exact ⟨congrArg _ (hlsr _), congrArg _ (hlsr _)⟩
  · exact ⟨congrArg _ (hasr _), congrArg _ (hasr _)⟩

/-! ## Rotates -/

/-- Bit by bit, a rotation to the left (R315). -/
theorem getLsbD_rotateLeft_mod {w : Nat} (v : BitVec w) (x : Nat) {j : Nat} (hj : j < w) :
    (v.rotateLeft x).getLsbD j = v.getLsbD ((j + w - x % w) % w) := by
  have hx : x % w < w := Nat.mod_lt _ (by omega)
  rw [BitVec.getLsbD_rotateLeft]
  by_cases h : j < x % w
  · have hplace : (j + w - x % w) % w = w - x % w + j := by
      rw [Nat.mod_eq_of_lt (by omega)]; omega
    simp only [h, hplace, decide_true, cond_true]
  · have hplace : (j + w - x % w) % w = j - x % w := by
      rw [Nat.mod_eq_sub_mod (by omega), Nat.mod_eq_of_lt (by omega)]; omega
    simp only [h, hj, hplace, decide_true, decide_false, cond_false, Bool.true_and]

/-- Bit by bit, a rotation to the right (R316). -/
theorem getLsbD_rotateRight_mod {w : Nat} (v : BitVec w) (x : Nat) {j : Nat} (hj : j < w) :
    (v.rotateRight x).getLsbD j = v.getLsbD ((j + x) % w) := by
  have hx : x % w < w := Nat.mod_lt _ (by omega)
  have hmod : (j + x) % w = (j + x % w) % w := (Nat.add_mod_mod ..).symm
  rw [BitVec.getLsbD_rotateRight, hmod]
  by_cases h : j < w - x % w
  · have hplace : (j + x % w) % w = x % w + j := by
      rw [Nat.mod_eq_of_lt (by omega)]; omega
    simp only [h, hplace, decide_true, cond_true]
  · have hplace : (j + x % w) % w = j - (w - x % w) := by
      rw [Nat.mod_eq_sub_mod (by omega), Nat.mod_eq_of_lt (by omega)]; omega
    simp only [h, hj, hplace, decide_true, decide_false, cond_false, Bool.true_and]

/-- Settles O18: each form puts a rotated word into Rd, and a count of at most 15 is less than the width. -/
theorem rotateResult : Obligations.RotateResult := by
  intro s d m imm
  rw [← regCount_eq]
  intro v rotates count
  have hleft : ∀ {i : Instr} {x : Nat}, x ≤ 15 → exec i s = .next (s.putNZ d (rotateLeft v x)) →
      rotates i (fun j => (j + 16 - x) % 16) := fun {_ x} hx hexec =>
    ⟨_, fun j hj => by rw [rotateLeft, getLsbD_rotateLeft_mod v x hj, Nat.mod_eq_of_lt (a := x) (by omega)],
      hexec.trans (congrArg _ (putNZ_eq s d _))⟩
  have hright : ∀ {i : Instr} {x : Nat}, exec i s = .next (s.putNZ d (rotateRight v x)) →
      rotates i (fun j => (j + x) % 16) := fun {_ x} hexec =>
    ⟨_, fun _ => getLsbD_rotateRight_mod v x, hexec.trans (congrArg _ (putNZ_eq s d _))⟩
  refine ⟨decode_encode (.rnlReg d m), decode_encode (.rnlImm d imm), decode_encode (.rnrReg d m),
    decode_encode (.rnrImm d imm), ?_, ?_, ?_, ?_⟩
  · exact hleft (regCount_le _) rfl
  · exact hleft (immCount_le imm) rfl
  · exact hright rfl
  · exact hright rfl

/-! ## Rotates through C -/

/-- The word and the carry of a value of 17 bits. -/
def wordAndCarry (w : BitVec 17) : Word × Bool := (w.setWidth 16, w.getLsbD 16)

/-- C above a word, bit by bit. -/
theorem getLsbD_carry_append (c : Bool) (v : Word) (j : Nat) :
    (BitVec.ofBool c ++ v).getLsbD j = if j < 16 then v.getLsbD j else decide (j = 16) && c := by
  rw [BitVec.getLsbD_append, BitVec.getLsbD_ofBool]
  have hplace : ¬j < 16 → (j - 16 = 0 ↔ j = 16) := by omega
  split
  next => rfl
  next h => rw [decide_eq_decide.2 (hplace h)]

theorem wordAndCarry_append (c : Bool) (v : Word) : wordAndCarry (BitVec.ofBool c ++ v) = (v, c) := by
  have hc : (BitVec.ofBool c ++ v).getLsbD 16 = c := getLsbD_carry_append c v 16
  rw [wordAndCarry, hc, BitVec.setWidth_append_eq_right]

/-- One step of ROL: C moves into bit 0 and bit 15 into C, every other bit one place up (R317). -/
theorem rotateLeft_one_carry (c : Bool) (v : Word) :
    (BitVec.ofBool c ++ v).rotateLeft 1 =
      BitVec.ofBool v.msb ++ ((v <<< 1) ||| (BitVec.ofBool c).setWidth 16) := by
  apply BitVec.eq_of_getLsbD_eq
  intro j hj
  rw [getLsbD_rotateLeft_mod _ _ hj, getLsbD_carry_append, getLsbD_carry_append]
  obtain rfl | rfl | ⟨hpos, hlt⟩ : j = 0 ∨ j = 16 ∨ 0 < j ∧ j < 16 := by omega
  · simp
  · simp [BitVec.msb_eq_getLsbD_last]
  · have hplace : (j + (1 + 16) - 1 % (1 + 16)) % (1 + 16) = j - 1 := by omega
    have hlow : j - 1 < 16 := by omega
    rw [hplace]
    simp [hlow, hlt, hpos.ne']

/-- One step of ROR: C moves into bit 15 and bit 0 into C, every other bit one place down (R318). -/
theorem rotateRight_one_carry (c : Bool) (v : Word) :
    (BitVec.ofBool c ++ v).rotateRight 1 =
      BitVec.ofBool (v.getLsbD 0) ++ ((v >>> 1) ||| ((BitVec.ofBool c).setWidth 16 <<< 15)) := by
  apply BitVec.eq_of_getLsbD_eq
  intro j hj
  rw [getLsbD_rotateRight_mod _ _ hj, getLsbD_carry_append, getLsbD_carry_append]
  obtain rfl | rfl | hlt : j = 15 ∨ j = 16 ∨ j < 15 := by omega
  · simp
  · simp
  · have hplace : (j + 1) % (1 + 16) = 1 + j := by omega
    have hlow : 1 + j < 16 := by omega
    have hword : j < 16 := by omega
    rw [hplace]
    simp [hlow, hword, hlt]

/-- Rotations to the left add up. -/
theorem rotateLeft_rotateLeft (w : BitVec 17) (x y : Nat) : (w.rotateLeft x).rotateLeft y = w.rotateLeft (x + y) := by
  apply BitVec.eq_of_getLsbD_eq
  intro j hj
  have hplace : ((j + 17 - y % 17) % 17 + 17 - x % 17) % 17 = (j + 17 - (x + y) % 17) % 17 := by omega
  rw [getLsbD_rotateLeft_mod _ _ hj, getLsbD_rotateLeft_mod _ _ (Nat.mod_lt _ (by decide)),
    getLsbD_rotateLeft_mod _ _ hj, hplace]

/-- Rotations to the right add up. -/
theorem rotateRight_rotateRight (w : BitVec 17) (x y : Nat) :
    (w.rotateRight x).rotateRight y = w.rotateRight (x + y) := by
  apply BitVec.eq_of_getLsbD_eq
  intro j hj
  have hplace : ((j + y) % 17 + x) % 17 = (j + (x + y)) % 17 := by omega
  rw [getLsbD_rotateRight_mod _ _ hj, getLsbD_rotateRight_mod _ _ (Nat.mod_lt _ (by decide)),
    getLsbD_rotateRight_mod _ _ hj, hplace]

/-- ROL is a rotation of 17 bits: induction on the count, the first step taken off the rotation (R317). -/
theorem rotateLeftCarry_eq (v : Word) (c : Bool) (x : Nat) :
    rotateLeftCarry v c x = wordAndCarry ((BitVec.ofBool c ++ v).rotateLeft x) := by
  induction x generalizing v c with
  | zero =>
    have hzero : (BitVec.ofBool c ++ v).rotateLeft 0 = BitVec.ofBool c ++ v :=
      BitVec.eq_of_getLsbD_eq fun j hj => by rw [getLsbD_rotateLeft_mod _ _ hj, Nat.zero_mod, Nat.sub_zero,
        Nat.add_mod_right, Nat.mod_eq_of_lt hj]
    rw [hzero, wordAndCarry_append, rotateLeftCarry]
  | succ x ih => rw [rotateLeftCarry, ih, ← rotateLeft_one_carry, rotateLeft_rotateLeft, Nat.add_comm x 1]

/-- ROR is a rotation of 17 bits, in the same way (R318). -/
theorem rotateRightCarry_eq (v : Word) (c : Bool) (x : Nat) :
    rotateRightCarry v c x = wordAndCarry ((BitVec.ofBool c ++ v).rotateRight x) := by
  induction x generalizing v c with
  | zero =>
    have hzero : (BitVec.ofBool c ++ v).rotateRight 0 = BitVec.ofBool c ++ v :=
      BitVec.eq_of_getLsbD_eq fun j hj => by rw [getLsbD_rotateRight_mod _ _ hj, Nat.add_zero j,
        Nat.mod_eq_of_lt hj]
    rw [hzero, wordAndCarry_append, rotateRightCarry]
  | succ x ih => rw [rotateRightCarry, ih, ← rotateRight_one_carry, rotateRight_rotateRight, Nat.add_comm x 1]

/-- Settles O19: each form puts the word of the rotated 17 bits into Rd with C its bit 16. -/
theorem rotateCarryResult : Obligations.RotateCarryResult := by
  intro s d m imm
  rw [← regCount_eq]
  intro all put count
  have hrol : ∀ x : Nat, s.putNZC d (rotateLeftCarry (s.reg d) s.ps.c x).1 (rotateLeftCarry (s.reg d) s.ps.c x).2 =
      put (all.rotateLeft x) := by
    intro x
    rw [rotateLeftCarry_eq]
    exact putNZC_eq ..
  have hror : ∀ x : Nat, s.putNZC d (rotateRightCarry (s.reg d) s.ps.c x).1 (rotateRightCarry (s.reg d) s.ps.c x).2 =
      put (all.rotateRight x) := by
    intro x
    rw [rotateRightCarry_eq]
    exact putNZC_eq ..
  exact ⟨decode_encode (.rolReg d m), decode_encode (.rolImm d imm), decode_encode (.rorReg d m),
    decode_encode (.rorImm d imm), congrArg _ (hrol _), congrArg _ (hrol (immCount imm)), congrArg _ (hror _),
    congrArg _ (hror (immCount imm))⟩

end Sys2Proof.Proofs
end

section
/-! PROOFS. Bit tests: the mask and what each of the three changes does to a word bit by bit, the read-modify-write of
the memory forms by its cases, and on these each form on a register and on memory. -/

namespace Sys2Proof.Proofs

open Sys2Proof.Machine Sys2Proof.Laws

/-! ## One bit of a word -/

theorem getLsbD_bitMask (i : BitVec 4) (j : Nat) : (bitMask i).getLsbD j = decide (j = i.toNat) := by
  have hi : i.toNat < 16 := i.isLt
  rw [bitMask, ← BitVec.twoPow_eq, BitVec.getLsbD_twoPow, decide_eq_true hi, Bool.true_and]
  exact decide_eq_decide.2 eq_comm

/-- The bit is inverted (R331). -/
theorem getLsbD_xor_bitMask (v : Word) (i : BitVec 4) (j : Nat) :
    (v ^^^ bitMask i).getLsbD j = if j = i.toNat then !v.getLsbD j else v.getLsbD j := by
  rw [BitVec.getLsbD_xor, getLsbD_bitMask]
  split
  next h => rw [decide_eq_true h, Bool.xor_true]
  next h => rw [decide_eq_false h, Bool.xor_false]

/-- The bit is cleared (R332). -/
theorem getLsbD_and_not_bitMask (v : Word) (i : BitVec 4) {j : Nat} (hj : j < 16) :
    (v &&& ~~~bitMask i).getLsbD j = if j = i.toNat then false else v.getLsbD j := by
  rw [BitVec.getLsbD_and, BitVec.getLsbD_not, getLsbD_bitMask, decide_eq_true hj, Bool.true_and]
  split
  next h => rw [decide_eq_true h, Bool.not_true, Bool.and_false]
  next h => rw [decide_eq_false h, Bool.not_false, Bool.and_true]

/-- The bit is set (R333). -/
theorem getLsbD_or_bitMask (v : Word) (i : BitVec 4) (j : Nat) :
    (v ||| bitMask i).getLsbD j = if j = i.toNat then true else v.getLsbD j := by
  rw [BitVec.getLsbD_or, getLsbD_bitMask]
  split
  next h => rw [decide_eq_true h, Bool.or_true]
  next h => rw [decide_eq_false h, Bool.or_false]

/-- Settles O11: BTT writes Z only; the other three put Rd with its one bit changed, and Z and C. -/
theorem bitTestRegister : Obligations.BitTestRegister := by
  intro s d imm old puts
  refine ⟨decode_encode (.btt d imm), decode_encode (.btx d imm), decode_encode (.btc d imm),
    decode_encode (.bts d imm), rfl, ⟨_, fun j _ => ?_, rfl⟩, ⟨_, fun j hj => ?_, rfl⟩, ⟨_, fun j _ => ?_, rfl⟩⟩
  · rw [getLsbD_xor_bitMask]
    exact ite_congr rfl (fun h => by rw [h]) fun _ => rfl
  · exact getLsbD_and_not_bitMask _ imm hj
  · exact getLsbD_or_bitMask _ imm j

/-! ## The read-modify-write of a word -/

/-- A write of physical memory does not look at the draw counter. -/
theorem physWrite1_with_draws (s : State) (a : DWord) (v : Byte) (n : Nat) :
    { s with draws := n }.physWrite1 a v = { s.physWrite1 a v with draws := n } := by
  have hkind : { s with draws := n }.kindAt a = s.kindAt a := kindAt_congr rfl rfl a
  unfold State.physWrite1
  rw [hkind]
  cases s.kindAt a <;> rfl

theorem physWrite2_with_draws (s : State) (a : DWord) (v : Word) (n : Nat) :
    { s with draws := n }.physWrite2 a v = { s.physWrite2 a v with draws := n } :=
  calc { s with draws := n }.physWrite2 a v
    _ = { s.physWrite1 a (v.extractLsb' 0 8) with draws := n }.physWrite1 (a + 1#32) (v.extractLsb' 8 8) :=
      congrArg (State.physWrite1 · _ _) (physWrite1_with_draws s a _ n)
    _ = { s.physWrite2 a v with draws := n } := physWrite1_with_draws _ _ _ n

theorem physWrite2_ps (s : State) (a : DWord) (v : Word) : (s.physWrite2 a v).ps = s.ps := by
  rw [(physWrite2_memory s a v).1]

section ModifyWord

variable {s : State} {va : Word}

theorem modifyWord_of_odd (change : Word → Word) (h : va.getLsbD 0 = true) :
    s.modifyWord va change = .abort .align s := by
  rw [State.modifyWord, translateWord_of_odd _ _ h, bind_abort]

theorem modifyWord_of_denies (change : Word → Word) (heven : va.getLsbD 0 = false)
    (h : s.denies s.ps.mode .write va = true) :
    s.modifyWord va change = .abort (.page (s.pageFaultCause s.ps.mode .write va) va) s := by
  rw [State.modifyWord, translateWord_of_even _ _ heven, translate_of_denies h, bind_abort]

/-- The word read is that of an access translated once, for a write; the changed word goes to the same physical address
(R338, D27). -/
theorem modifyWord_some (change : Word → Word) (heven : va.getLsbD 0 = false)
    (h : s.allows s.ps.mode .write va = true) :
    ∃ (w : Word) (n : Nat),
      (s.ownWord (s.physical s.ps.mode va) = true →
        w = (s.touched s.ps.mode .write va).wordAt (s.physical s.ps.mode va) ∧ n = s.draws) ∧
      s.modifyWord va change =
        .done w
          { (s.touched s.ps.mode .write va).physWrite2 (s.physical s.ps.mode va) (change w) with draws := n } := by
  obtain ⟨w, n, hown, hread⟩ := readWordAs_some heven h
  rw [readWordAs_of_allows heven h] at hread
  obtain ⟨hword, hstate⟩ := Access.done.inj hread
  refine ⟨w, n, hown, ?_⟩
  rw [← physWrite2_with_draws, ← hstate, ← hword, State.modifyWord, translateWord_of_even _ _ heven,
    translate_of_allows h, bind_done]

end ModifyWord

/-! ## Instructions that act on one word of memory -/

section OneWord

variable {i : Instr} {s : State} {ea : Word}

/-- An instruction that begins with an access traps where the access aborts. -/
theorem traps_of_exec {α : Type} {p : Privilege} {k : AccessKind} {x : Access α} {f : α → State → Access Unit}
    (h : exec i s = .next (x.bind f).settle) (hodd : ea.getLsbD 0 = true → x = .abort .align s)
    (hdenies : ea.getLsbD 0 = false → s.denies p k ea = true → x = .abort (.page (s.pageFaultCause p k ea) ea) s) :
    TrapsMisaligned i s ea ∧ (ea.getLsbD 0 = false → TrapsRefused i s p k ea) := by
  refine ⟨fun ho => ?_, fun heven hd => ?_⟩
  · rw [h, hodd ho, bind_abort, settle_abort]
  · rw [h, hdenies heven hd, bind_abort, settle_abort]

theorem traps_of_modifyWord {change : Word → Word} {f : Word → State → Access Unit}
    (h : exec i s = .next ((s.modifyWord ea change).bind f).settle) :
    TrapsMisaligned i s ea ∧ (ea.getLsbD 0 = false → TrapsRefused i s s.ps.mode .write ea) :=
  traps_of_exec h (modifyWord_of_odd change) (modifyWord_of_denies change)

/-- Completion: the changed word is stored, and the flags come from the word read (R335 to R337). -/
theorem exec_of_modifyWord {imm : BitVec 4} {change : Word → Word} {carry : Bool → Bool}
    (h : exec i s = .next ((s.modifyWord ea change).bind fun w t =>
      .done () (t.setBitFlags (testBit w imm) (carry (testBit w imm)))).settle)
    (heven : ea.getLsbD 0 = false) (hallows : s.allows s.ps.mode .write ea = true) :
    ∃ (w : Word) (n : Nat),
      (s.ownWord (s.physical s.ps.mode ea) = true →
        w = (s.touched s.ps.mode .write ea).wordAt (s.physical s.ps.mode ea) ∧ n = s.draws) ∧
      exec i s = .next
        { (s.touched s.ps.mode .write ea).physWrite2 (s.physical s.ps.mode ea) (change w) with
          draws := n
          ps := { s.ps with z := !w.getLsbD imm.toNat, c := carry (w.getLsbD imm.toNat) } } := by
  obtain ⟨w, n, hown, hmodify⟩ := modifyWord_some change heven hallows
  refine ⟨w, n, hown, ?_⟩
  have hps : ((s.touched s.ps.mode .write ea).physWrite2 (s.physical s.ps.mode ea) (change w)).ps = s.ps := by
    rw [physWrite2_ps, touched_ps]
  rw [h, hmodify, bind_done, settle_done, State.setBitFlags, hps]
  rfl

end OneWord

/-- Settles O12: BTT.M is one word read; the other three are one read-modify-write whose change is that of the register
form. -/
theorem bitTestMemory : Obligations.BitTestMemory := by
  intro s d imm ea p pa traps modifies
  have hmodifies : ∀ (i : Instr) (change : Word → Word) (new carry : Bool → Bool),
      exec i s = .next ((s.modifyWord ea change).bind fun w t =>
        .done () (t.setBitFlags (testBit w imm) (carry (testBit w imm)))).settle →
      (∀ w : Word, ∀ j < 16, (change w).getLsbD j = if j = imm.toNat then new (w.getLsbD j) else w.getLsbD j) →
      modifies i new carry := by
    intro i change new carry hexec hbits heven hallows
    obtain ⟨w, n, hown, hnext⟩ := exec_of_modifyWord hexec heven hallows
    exact ⟨w, change w, n, hown, hbits w, stored_sameBytesOutside (physWrite2_sameBytesOutside _ _ _), hnext⟩
  refine ⟨decode_encode (.bttM d imm), decode_encode (.btxM d imm), decode_encode (.btcM d imm),
    decode_encode (.btsM d imm),
    traps_of_exec (x := s.readWord ea) rfl (readWordAs_of_odd p .read) readWordAs_of_denies,
    traps_of_modifyWord rfl, traps_of_modifyWord rfl, traps_of_modifyWord rfl, fun heven hallows => ?_, ?_, ?_, ?_⟩
  · obtain ⟨w, n, hown, hread⟩ := readWordAs_some heven hallows
    refine ⟨w, n, hown, touched_sameBytesOutside s p .read ea, ?_⟩
    have hexec : exec (.bttM d imm) s =
        .next ((s.readWordAs p .read ea).bind fun w t => .done () (t.setZ (!testBit w imm))).settle := rfl
    rw [hexec, hread, bind_done, settle_done, ← touched_ps s p .read ea]
    rfl
  · exact hmodifies (.btxM d imm) (· ^^^ bitMask imm) (!·) (!·) rfl
      fun w j _ => getLsbD_xor_bitMask w imm j
  · exact hmodifies (.btcM d imm) (· &&& ~~~bitMask imm) (fun _ => false) (fun b => b) rfl
      fun w j hj => getLsbD_and_not_bitMask w imm hj
  · exact hmodifies (.btsM d imm) (· ||| bitMask imm) (fun _ => true) (!·) rfl
      fun w j _ => getLsbD_or_bitMask w imm j

end Sys2Proof.Proofs
end

section
/-! PROOFS. PS as a word: its bits by its fields, and what a read and a write of it give in each mode (10_state.md R38 to
R40). -/

namespace Sys2Proof.Proofs

open Sys2Proof.Machine

/-- Bit `j` of PS by its fields (R38). -/
def statusBit (p : Status) : Nat → Bool
  | 0 => p.v
  | 1 => p.c
  | 2 => p.z
  | 3 => p.n
  | 4 => p.level.getLsbD 0
  | 5 => p.level.getLsbD 1
  | 6 => p.level.getLsbD 2
  | 12 => p.ie
  | 13 => p.mmu
  | 14 => decide (p.mode = .supervisor)
  | _ => false

/-- PS.P by its two bits (R38). -/
theorem getElem_bits (m : Mode) : m.bits[0] = decide (m = .supervisor) ∧ m.bits[1] = false := by
  cases m <;> decide

theorem getLsbD_toWord (p : Status) {j : Nat} (hj : j < 16) : p.toWord.getLsbD j = statusBit p j := by
  obtain ⟨hlow, hhigh⟩ := getElem_bits p.mode
  rw [Status.toWord]
  iterate 8 rw [BitVec.getLsbD_append]
  interval_cases j <;> simp [statusBit, hlow, hhigh]

/-- A supervisor write of PS keeps bits 15:12 and 6:0 of a word whose bit 15 is clear (R39, R40). -/
theorem ofWord?_of_defined {w : Word} (h : w.getLsbD 15 = false) :
    ∃ p, Status.ofWord? w = some p ∧ p.toWord = w &&& 0xF07F#16 := by
  refine ⟨_, by rw [Status.ofWord?, h]; rfl, BitVec.eq_of_getLsbD_eq fun j hj => ?_⟩
  have hreserved : w[15] = false := h
  rw [getLsbD_toWord _ hj]
  interval_cases j <;> simp [statusBit, hreserved]

/-- A user write of PS takes the flags from the word and all else from PS (R39). -/
theorem toWord_withFlagsOf (p : Status) (w : Word) :
    (p.withFlagsOf w).toWord = (p.toWord &&& 0xFFF0#16) ||| (w &&& 0x000F#16) := by
  refine BitVec.eq_of_getLsbD_eq fun j hj => ?_
  rw [BitVec.getLsbD_or, BitVec.getLsbD_and, getLsbD_toWord _ hj, getLsbD_toWord _ hj]
  interval_cases j <;> simp [statusBit, Status.withFlagsOf]

theorem write?_of_reserved {p : Status} {w : Word} (hmode : p.mode ≠ .user) (h : w.getLsbD 15 = true) :
    p.write? w = none := by
  cases hp : p.mode with
  | user => exact absurd hp hmode
  | supervisor => simp only [Status.write?, hp, Status.ofWord?, h, if_true]

theorem write?_of_defined {p : Status} {w : Word} (h : p.mode = .user ∨ w.getLsbD 15 = false) :
    ∃ q, p.write? w = some q ∧ (p.mode ≠ .user → q.toWord = w &&& 0xF07F#16) ∧
      (p.mode = .user → q.toWord = (p.toWord &&& 0xFFF0#16) ||| (w &&& 0x000F#16)) := by
  cases hp : p.mode with
  | user => exact ⟨_, by rw [Status.write?, hp], by simp, fun _ => toWord_withFlagsOf p w⟩
  | supervisor =>
    obtain ⟨q, hq, hword⟩ := ofWord?_of_defined (h.resolve_left (by simp [hp]))
    exact ⟨q, by rw [Status.write?, hp, hq], fun _ => hword, nofun⟩

/-- What a read of PS gives, by mode (R39). -/
theorem readable_eq (p : Status) :
    p.readable = if decide (p.mode = .user) then p.toWord &&& 0x000F#16 else p.toWord := by
  cases hmode : p.mode <;> simp [Status.readable, Status.userWord, hmode]

end Sys2Proof.Proofs
end

section
/-! PROOFS. Frames of several words: which members of a group a mask selects and in what order, and the runs of pushes and
of pops over them, whole with the MMU off. -/

namespace Sys2Proof.Proofs

open Sys2Proof.Machine Sys2Proof.Laws

/-! ## The members a mask selects -/

/-- The numbers a mask selects, in the order STR pops them: from the highest down (R352). -/
def popOrder (mask : BitVec 4) : List Nat := ((List.range 4).filter fun k => mask.getLsbD k).reverse

theorem map_filter_cons {α : Type} (p : Nat → Bool) (f : Nat → α) (k : Nat) (ks : List Nat) :
    ((k :: ks).filter p).map f = selectIf (p k) (f k) ++ (ks.filter p).map f := by
  cases h : p k <;> simp [selectIf, h]

/-- Ascending order is the order of the numbers that the mask selects (R356). -/
theorem selectAscending_eq {α : Type} (mask : BitVec 4) (f : Nat → α) :
    selectAscending mask (f 0) (f 1) (f 2) (f 3) = ((List.range 4).filter fun k => mask.getLsbD k).map f := by
  have hrange : List.range 4 = [0, 1, 2, 3] := rfl
  simp only [hrange, map_filter_cons, List.filter_nil, List.map_nil, List.append_nil, selectAscending,
    List.append_assoc]

theorem selectDescending_eq {α : Type} (mask : BitVec 4) (f : Nat → α) :
    selectDescending mask (f 0) (f 1) (f 2) (f 3) = (popOrder mask).map f := by
  have hrange : (List.range 4).reverse = [3, 2, 1, 0] := rfl
  simp only [popOrder, ← List.filter_reverse, hrange, map_filter_cons, List.filter_nil, List.map_nil, List.append_nil,
    selectDescending, List.append_assoc]

@[simp] theorem length_popOrder (mask : BitVec 4) : (popOrder mask).length = maskCount mask := List.length_reverse

theorem mem_popOrder {mask : BitVec 4} {k : Nat} : k ∈ popOrder mask ↔ k < 4 ∧ mask.getLsbD k = true := by
  simp [popOrder]

theorem nodup_popOrder (mask : BitVec 4) : (popOrder mask).Nodup :=
  List.nodup_reverse.2 (List.nodup_range.filter _)

/-- A selected member is popped after those above it (R352). -/
theorem popOrder_maskAbove :
    ∀ mask : BitVec 4, ∀ k < 4, mask.getLsbD k = true → (popOrder mask)[maskAbove mask k]? = some k := by
  decide

theorem maskAbove_lt_maskCount {mask : BitVec 4} {k : Nat} (hk : k < 4) (h : mask.getLsbD k = true) :
    maskAbove mask k < maskCount mask := by
  obtain ⟨hlt, -⟩ := List.getElem?_eq_some_iff.1 (popOrder_maskAbove mask k hk h)
  rwa [length_popOrder] at hlt

theorem maskCount_eq_zero_iff : ∀ mask : BitVec 4, maskCount mask = 0 ↔ mask = 0#4 := by decide

/-! ## Accesses with the MMU off -/

theorem touched_mmuOff {s : State} (p : Privilege) (k : AccessKind) (va : Word) (h : s.ps.mmu = false) :
    s.touched p k va = s := by
  simp [State.touched, h]

theorem physical_mmuOff {s : State} (p : Privilege) (va : Word) (h : s.ps.mmu = false) :
    s.physical p va = va.setWidth 32 := by
  simp [State.physical, h]

theorem allows_mmuOff {s : State} (p : Privilege) (k : AccessKind) (va : Word) (h : s.ps.mmu = false) :
    s.allows p k va = true := by
  simp [State.allows, h]

theorem writeWordAs_mmuOff {s : State} (p : Privilege) {va : Word} (v : Word) (h : s.ps.mmu = false)
    (heven : va.getLsbD 0 = false) : s.writeWordAs p va v = .done () (s.physWrite2 (va.setWidth 32) v) := by
  rw [writeWordAs_of_allows v heven (allows_mmuOff p .write va h), touched_mmuOff p .write va h,
    physical_mmuOff p va h]

theorem readWordAs_mmuOff {s : State} (p : Privilege) {va : Word} (h : s.ps.mmu = false)
    (heven : va.getLsbD 0 = false) (hown : s.ownWord (va.setWidth 32) = true) :
    s.readWordAs p .read va = .done (s.wordAt (va.setWidth 32)) s := by
  have hphysical := physical_mmuOff p va h
  rw [readWordAs_own heven (allows_mmuOff p .read va h) (hphysical ▸ hown), touched_mmuOff p .read va h, hphysical]

/-! ## A run of pushes -/

theorem pushWords_sp {p : Privilege} :
    ∀ {vs : List Word} {s t : State} {sp sp' : Word}, s.pushWords p sp vs = .done sp' t →
      sp' = sp - BitVec.ofNat 16 (2 * vs.length)
  | [], _, _, sp, _, h => by
    obtain ⟨hsp, -⟩ := Access.done.inj h
    rw [← hsp]; simp
  | v :: rest, _, _, sp, _, h => by
    obtain ⟨_, _, -, hrest⟩ := bind_eq_done h
    rw [pushWords_sp hrest, List.length_cons]
    bv_omega

theorem pushWords_same {s : State} {p : Privilege} {sp : Word} {vs : List Word} {x : Access Word}
    (h : s.pushWords p sp vs = x) : SameButMemory s (final x) :=
  h ▸ (pushWords_memory p vs s sp).1

theorem pushWords_of_odd {s : State} (p : Privilege) {sp : Word} {vs : List Word} (hne : vs ≠ [])
    (hodd : sp.getLsbD 0 = true) : s.pushWords p sp vs = .abort .align s := by
  obtain ⟨v, rest, rfl⟩ := List.exists_cons_of_ne_nil hne
  rw [pushWords_cons, writeWordAs_of_odd p v ((getLsbD_zero_sub_two sp).trans hodd), bind_abort]

/-- With the MMU off and an even stack pointer no push faults. -/
theorem pushWords_mmuOff (p : Privilege) :
    ∀ (vs : List Word) (s : State) (sp : Word), s.ps.mmu = false → vs = [] ∨ sp.getLsbD 0 = false →
      s.pushWords p sp vs = .done (sp - BitVec.ofNat 16 (2 * vs.length)) (s.storeDown sp vs)
  | [], s, sp, _, _ => by simp [State.pushWords, State.storeDown]
  | v :: rest, s, sp, hmmu, hsp => by
    have heven : (sp - 2#16).getLsbD 0 = false :=
      (getLsbD_zero_sub_two sp).trans (hsp.resolve_left (List.cons_ne_nil v rest))
    have hmmu' : (s.physWrite2 ((sp - 2#16).setWidth 32) v).ps.mmu = false := by rw [physWrite2_ps, hmmu]
    have hsub : sp - 2#16 - BitVec.ofNat 16 (2 * rest.length) = sp - BitVec.ofNat 16 (2 * (v :: rest).length) := by
      rw [List.length_cons]; bv_omega
    rw [pushWords_cons, writeWordAs_mmuOff p v hmmu heven, bind_done, pushWords_mmuOff p rest _ _ hmmu' (.inr heven),
      hsub, State.storeDown]

/-! ## The bytes of a run of pushes -/

/-- The two bytes of a word pushed lie in the frame that the run leaves, which begins `n` bytes below it: no even address is
the last of the 64 KiB. -/
theorem stackBytes_of_inRange {sp : Word} {n : Nat} {a : DWord} (heven : sp.getLsbD 0 = false)
    (h : InRange (sp.setWidth 32) 2 a) : StackBytes (sp - BitVec.ofNat 16 n) (n + 2) a := by
  have hmod : sp.toNat % 2 = 0 := by simpa [BitVec.getLsbD, Nat.testBit_zero] using heven
  unfold InRange at h
  unfold StackBytes
  have ha : a.toNat = sp.toNat ∨ a.toNat = sp.toNat + 1 := by bv_omega
  refine ⟨by omega, ?_⟩
  bv_omega

theorem storeDown_sameBytesOutside :
    ∀ (vs : List Word) (s : State) (sp : Word), vs = [] ∨ sp.getLsbD 0 = false →
      SameBytesOutside s (s.storeDown sp vs) (StackBytes (sp - BitVec.ofNat 16 (2 * vs.length)) (2 * vs.length))
  | [], _, _, _ => fun _ _ => rfl
  | v :: rest, s, sp, hsp => by
    intro a ha
    have heven : (sp - 2#16).getLsbD 0 = false :=
      (getLsbD_zero_sub_two sp).trans (hsp.resolve_left (List.cons_ne_nil v rest))
    have hsub : sp - BitVec.ofNat 16 (2 * (v :: rest).length) = sp - 2#16 - BitVec.ofNat 16 (2 * rest.length) := by
      rw [List.length_cons]; bv_omega
    rw [hsub, List.length_cons, Nat.mul_succ] at ha
    have hrest : ¬StackBytes (sp - 2#16 - BitVec.ofNat 16 (2 * rest.length)) (2 * rest.length) a :=
      fun ⟨hlow, hin⟩ => ha ⟨hlow, by omega⟩
    have hword : ¬InRange ((sp - 2#16).setWidth 32) 2 a := fun h => ha (stackBytes_of_inRange heven h)
    exact (storeDown_sameBytesOutside rest _ _ (.inr heven) a hrest).trans
      (physWrite2_sameBytesOutside s _ v a hword)

theorem byteAt_setSp (s : State) (v : Word) (a : DWord) : (s.setSp v).byteAt a = s.byteAt a :=
  byteAt_congr (by simp) (by simp) (by simp) (by simp) a

/-! ## A run of pops -/

theorem popWords_length {p : Privilege} :
    ∀ {n : Nat} {s t : State} {sp : Word} {ws : List Word}, s.popWords p sp n = .done ws t → ws.length = n
  | 0, _, _, _, _, h => by
    obtain ⟨hws, -⟩ := Access.done.inj h
    rw [← hws]; rfl
  | n + 1, _, _, _, _, h => by
    obtain ⟨_, _, -, hrest⟩ := bind_eq_done h
    obtain ⟨_, _, hpop, hdone⟩ := bind_eq_done hrest
    obtain ⟨hws, -⟩ := Access.done.inj hdone
    rw [← hws, List.length_cons, popWords_length hpop]

theorem popWords_same {s : State} {p : Privilege} {sp : Word} {n : Nat} {x : Access (List Word)}
    (h : s.popWords p sp n = x) : SameButMemory s (final x) :=
  h ▸ (popWords_memory p n s sp).1

theorem getLsbD_zero_add_two (sp : Word) : (sp + 2#16).getLsbD 0 = sp.getLsbD 0 := by
  rw [← getLsbD_zero_sub_two (sp + 2#16), BitVec.add_sub_cancel]

theorem popWords_of_odd {s : State} (p : Privilege) {sp : Word} {n : Nat} (hne : n ≠ 0) (hodd : sp.getLsbD 0 = true) :
    s.popWords p sp n = .abort .align s := by
  obtain ⟨m, rfl⟩ := Nat.exists_eq_succ_of_ne_zero hne
  rw [popWords_succ, readWordAs_of_odd p .read hodd, bind_abort]

/-- With the MMU off, an even stack pointer and the frame in memory, the words popped are those of the frame. -/
theorem popWords_mmuOff {s : State} (p : Privilege) (hmmu : s.ps.mmu = false) :
    ∀ (n : Nat) (sp : Word), n = 0 ∨ sp.getLsbD 0 = false →
      (∀ j < n, s.ownWord ((sp + BitVec.ofNat 16 (2 * j)).setWidth 32) = true) →
      s.popWords p sp n =
        .done ((List.range n).map fun j => s.wordAt ((sp + BitVec.ofNat 16 (2 * j)).setWidth 32)) s
  | 0, _, _, _ => rfl
  | n + 1, sp, hsp, hown => by
    have heven : sp.getLsbD 0 = false := hsp.resolve_left (Nat.succ_ne_zero n)
    have heven' : (sp + 2#16).getLsbD 0 = false := (getLsbD_zero_add_two sp).trans heven
    have hnext : ∀ j, sp + 2#16 + BitVec.ofNat 16 (2 * j) = sp + BitVec.ofNat 16 (2 * (j + 1)) := by
      intro j; bv_omega
    have hfirst : s.ownWord (sp.setWidth 32) = true := by simpa using hown 0 (Nat.succ_pos n)
    have hrest := popWords_mmuOff p hmmu n (sp + 2#16) (.inr heven') fun j hj => by
      rw [hnext]; exact hown (j + 1) (Nat.succ_lt_succ hj)
    rw [popWords_succ, readWordAs_mmuOff p hmmu heven hfirst, bind_done, hrest, bind_done]
    simp [List.range_succ_eq_map, Function.comp_def, hnext]

/-- With the MMU off and its frame in memory, an STR pops for each member the frame's word for it (R352, R353). -/
theorem popWords_ownFrame {s : State} {mask : BitVec 4} (p : Privilege) (hmmu : s.ps.mmu = false)
    (hsp : mask = 0#4 ∨ s.sp.getLsbD 0 = false) (hown : s.ownFrame (maskCount mask) = true) :
    ∃ words : List Word, s.popWords p s.sp (maskCount mask) = .done words s ∧
      ∀ k < 4, mask.getLsbD k = true → s.popped mask k = words.getD (maskAbove mask k) 0#16 := by
  have hframe : ∀ j < maskCount mask, s.ownWord ((s.sp + BitVec.ofNat 16 (2 * j)).setWidth 32) = true := by
    simpa [State.ownFrame] using hown
  refine ⟨_, popWords_mmuOff p hmmu _ _ (hsp.imp_left (maskCount_eq_zero_iff mask).2) hframe, fun k hk h => ?_⟩
  simp [maskAbove_lt_maskCount hk h, State.popped]

end Sys2Proof.Proofs
end

section
/-! PROOFS. STS and STR: each group as one run of pushes or pops, and on it the registers that STR writes. -/

namespace Sys2Proof.Proofs

open Sys2Proof.Machine Sys2Proof.Laws

/-! ## STS -/

/-- The members an STS pushes are those the mask selects from its list (R356). -/
theorem selectAscending_getD (mask : BitVec 4) (m0 m1 m2 m3 : Word) :
    selectAscending mask m0 m1 m2 m3 =
      ((List.range 4).filter fun k => mask.getLsbD k).map fun k => [m0, m1, m2, m3].getD k 0#16 :=
  selectAscending_eq mask fun k => [m0, m1, m2, m3].getD k 0#16

theorem settle_stash (s : State) (values : List Word) :
    (s.stash values).settle =
      match s.pushWords s.ps.mode s.sp values with
      | .done sp t => t.setSp sp
      | .abort e t => t.raiseFault e := by
  rw [State.stash]
  cases s.pushWords s.ps.mode s.sp values <;> rfl

/-- Settles O26: each group is one run of pushes of the members selected, which ends by the cases of its first word and, with
the MMU off, finishes. -/
theorem stashRegisters : Obligations.StashRegisters := by
  intro s mask user low high special stashes
  have hstashes : ∀ (i : Instr) (m0 m1 m2 m3 : Word),
      exec i s = .next (s.stash (selectAscending mask m0 m1 m2 m3)).settle → stashes i [m0, m1, m2, m3] := by
    intro i m0 m1 m2 m3 hexec
    rw [selectAscending_getD, settle_stash] at hexec
    dsimp only [stashes]
    generalize hchosen : List.map _ _ = chosen at hexec ⊢
    have hlength : chosen.length = maskCount mask := by rw [← hchosen]; exact List.length_map _
    have hnil : chosen = [] ↔ mask = 0#4 := by
      rw [← List.length_eq_zero_iff, hlength, maskCount_eq_zero_iff]
    refine ⟨?_, fun sp t h => ⟨hlength ▸ pushWords_sp h, pushWords_same h⟩, fun e t h => pushWords_same h,
      fun hne hodd => ?_, fun hmmu hsp => ⟨?_, fun a ha => ?_⟩⟩
    · rw [hexec]
      cases s.pushWords s.ps.mode s.sp chosen <;> rfl
    · rw [hexec, pushWords_of_odd _ (mt hnil.1 hne) hodd]
    · rw [hexec, pushWords_mmuOff _ chosen s s.sp hmmu (hsp.imp_left hnil.2), hlength]
    · rw [byteAt_setSp]
      rw [← hlength] at ha
      exact storeDown_sameBytesOutside chosen s s.sp (hsp.imp_left hnil.2) a ha
  refine ⟨decode_encode (.stsLow mask), decode_encode (.stsHigh mask), decode_encode (.stsSpecial mask),
    hstashes _ _ _ _ _ rfl, hstashes _ _ _ _ _ rfl, hstashes _ _ _ _ _ ?_⟩
  have hsp : (if user then s.su else s.ss) = s.sp := by simpa only [user, decide_eq_true_eq] using (sp_eq s).symm
  rw [hsp, ← readable_eq]
  rfl

/-! ## Registers written one by one -/

theorem reg_setRegs_of_not_mem {r : Reg} :
    ∀ {rs : List Reg} (vs : List Word) (s : State), r ∉ rs → (s.setRegs rs vs).reg r = s.reg r
  | [], _, _, _ => rfl
  | _ :: _, [], _, _ => rfl
  | q :: rs, v :: vs, s, h => by
    obtain ⟨hne, hrest⟩ := not_or.1 (mt List.mem_cons.2 h)
    rw [State.setRegs, reg_setRegs_of_not_mem vs _ hrest, reg_setReg, if_neg hne]

theorem reg_setRegs_of_getElem? {r : Reg} :
    ∀ {rs : List Reg} {vs : List Word} {n : Nat} (s : State), rs.Nodup → vs.length = rs.length → rs[n]? = some r →
      (s.setRegs rs vs).reg r = vs.getD n 0#16
  | q :: rs, v :: vs, 0, s, hnodup, _, h => by
    obtain ⟨hq, -⟩ := List.nodup_cons.1 hnodup
    obtain rfl : q = r := by simpa using h
    rw [State.setRegs, reg_setRegs_of_not_mem vs _ hq, reg_setReg, if_pos rfl]
    rfl
  | q :: rs, v :: vs, n + 1, s, hnodup, hlength, h => by
    obtain ⟨-, hnodup⟩ := List.nodup_cons.1 hnodup
    exact reg_setRegs_of_getElem? (s.setReg q v) hnodup (Nat.succ.inj hlength) (by simpa using h)
  | _ :: _, [], _, _, _, hlength, _ => nomatch hlength
  | [], _, _, _, _, _, h => nomatch h

theorem setRegs_eq : ∀ (rs : List Reg) (vs : List Word) (s : State),
    s.setRegs rs vs = { s with regs := (s.setRegs rs vs).regs }
  | [], _, _ => rfl
  | _ :: _, [], _ => rfl
  | r :: rs, v :: vs, s => setRegs_eq rs vs (s.setReg r v)

/-! ## STR, groups 0 and 1 -/

/-- Member `k` of the group of registers that begins at `base` (R352). -/
def groupReg (base k : Nat) : Reg := BitVec.ofNat 3 (base + k)

theorem groupReg_inj {base j k : Nat} (hj : j < 4) (hk : k < 4) (h : groupReg base j = groupReg base k) : j = k := by
  unfold groupReg at h
  bv_omega

theorem groupReg_ne_groupReg {base j k : Nat} (hbase : base = 0 ∨ base = 4) (hj : j < 4) (hk : k < 4) :
    groupReg (4 - base) j ≠ groupReg base k := by
  unfold groupReg
  bv_omega

section Group

variable {mask : BitVec 4} {base : Nat} {words : List Word} {k : Nat}

theorem nodup_group : ((popOrder mask).map (groupReg base)).Nodup :=
  (nodup_popOrder mask).map_on fun _ hj _ hk => groupReg_inj (mem_popOrder.1 hj).1 (mem_popOrder.1 hk).1

theorem reg_setRegs_selected (s : State) (hlength : words.length = maskCount mask) (hk : k < 4)
    (h : mask.getLsbD k = true) :
    (s.setRegs ((popOrder mask).map (groupReg base)) words).reg (groupReg base k) =
      words.getD (maskAbove mask k) 0#16 :=
  reg_setRegs_of_getElem? s nodup_group (by rw [hlength, List.length_map, length_popOrder])
    (by rw [List.getElem?_map, popOrder_maskAbove mask k hk h]; rfl)

theorem reg_setRegs_not_selected (s : State) (words : List Word) (hk : k < 4) (h : mask.getLsbD k = false) :
    (s.setRegs ((popOrder mask).map (groupReg base)) words).reg (groupReg base k) = s.reg (groupReg base k) := by
  refine reg_setRegs_of_not_mem words s fun hmem => ?_
  obtain ⟨j, hj, heq⟩ := List.mem_map.1 hmem
  obtain ⟨hj, hselected⟩ := mem_popOrder.1 hj
  rw [groupReg_inj hj hk heq, h] at hselected
  exact Bool.false_ne_true hselected

theorem reg_setRegs_other_group (s : State) (words : List Word) (hbase : base = 0 ∨ base = 4) (hk : k < 4) :
    (s.setRegs ((popOrder mask).map (groupReg base)) words).reg (groupReg (4 - base) k) =
      s.reg (groupReg (4 - base) k) := by
  refine reg_setRegs_of_not_mem words s fun hmem => ?_
  obtain ⟨j, hj, heq⟩ := List.mem_map.1 hmem
  exact groupReg_ne_groupReg hbase hk (mem_popOrder.1 hj).1 heq.symm

end Group

theorem settle_restore (s : State) (mask : BitVec 4) (r : Nat → Reg) :
    (s.restore ((popOrder mask).map r)).settle =
      match s.popWords s.ps.mode s.sp (maskCount mask) with
      | .done words t =>
        (t.setRegs ((popOrder mask).map r) words).setSp (s.sp + BitVec.ofNat 16 (2 * maskCount mask))
      | .abort e t => t.raiseFault e := by
  rw [State.restore, List.length_map, length_popOrder, BitVec.ofNat_mul]
  cases s.popWords s.ps.mode s.sp (maskCount mask) <;> rfl

/-- Settles O27: each group is one run of pops, and then writes to the registers in the order of the pops. -/
theorem restoreRegisters : Obligations.RestoreRegisters := by
  intro s mask after loaded restores
  have hrestores : ∀ (i : Instr) (base : Nat), base = 0 ∨ base = 4 →
      exec i s = .next (s.restore ((popOrder mask).map (groupReg base))).settle → restores i base := by
    intro i base hbase hexec
    rw [settle_restore] at hexec
    have hdone : ∀ (words : List Word) (u : State) (word : Nat → Word),
        s.popWords s.ps.mode s.sp (maskCount mask) = .done words u →
        (∀ k < 4, mask.getLsbD k = true → word k = words.getD (maskAbove mask k) 0#16) →
        ∃ t : State, loaded base u t word ∧ exec i s = .next (t.setSp after) := by
      intro words u word hpops hword
      have hsame : SameButMemory s u := popWords_same hpops
      have hregs : u.regs = s.regs := by rw [hsame]
      refine ⟨u.setRegs ((popOrder mask).map (groupReg base)) words,
        ⟨fun k hk => ?_, fun k hk => ?_, setRegs_eq _ words u⟩, by rw [hexec, hpops]⟩
      · cases hselected : mask.getLsbD k with
        | true =>
          rw [if_pos rfl, hword k hk hselected]
          exact reg_setRegs_selected u (popWords_length hpops) hk hselected
        | false =>
          rw [if_neg Bool.false_ne_true, ← reg_of_regs hregs]
          exact reg_setRegs_not_selected u words hk hselected
      · rw [← reg_of_regs hregs]
        exact reg_setRegs_other_group u words hbase hk
    refine ⟨fun hne hodd => ?_, fun e u h => ⟨by rw [hexec, h], popWords_same h⟩,
      fun words u h => ⟨popWords_same h, hdone words u _ h fun _ _ _ => rfl⟩, fun hmmu hsp hown => ?_⟩
    · rw [hexec, popWords_of_odd _ (mt (maskCount_eq_zero_iff mask).1 hne) hodd]
    · obtain ⟨words, hpops, hword⟩ := popWords_ownFrame s.ps.mode hmmu hsp hown
      exact hdone words s _ hpops hword
  refine ⟨decode_encode (.strLow mask), decode_encode (.strHigh mask), hrestores _ 0 (.inl rfl) ?_,
    hrestores _ 4 (.inr rfl) ?_⟩
  · rw [← selectDescending_eq]; rfl
  · rw [← selectDescending_eq]; rfl

/-! ## STR, group 2 -/

theorem maskAbove_three (mask : BitVec 4) : maskAbove mask 3 = 0 := by revert mask; decide

theorem maskAbove_succ_add :
    ∀ mask : BitVec 4, ∀ k < 3, maskAbove mask (k + 1) + (mask.getLsbD (k + 1)).toNat = maskAbove mask k := by
  decide

section Commit

variable {mask : BitVec 4} {words : List Word} {v : Nat → Word}

/-- A member takes its word, if selected, from the words left by the members above it. -/
theorem takeIf_member (hlength : words.length = maskCount mask)
    (hv : ∀ k < 4, mask.getLsbD k = true → v k = words.getD (maskAbove mask k) 0#16) {k : Nat} (hk : k < 4) :
    takeIf (mask.getLsbD k) (words.drop (maskAbove mask k)) =
      (if mask.getLsbD k then some (v k) else none, words.drop (maskAbove mask k + (mask.getLsbD k).toNat)) := by
  cases h : mask.getLsbD k with
  | false => rfl
  | true =>
    have hlt : maskAbove mask k < words.length := hlength ▸ maskAbove_lt_maskCount hk h
    simp [takeIf, hlt, hv k hk h]

theorem getD_selected {α : Type} (b : Bool) (x y : α) :
    (if b then some x else none).getD y = if b then x else y := by
  cases b <;> rfl

theorem setSp_su (s : State) (x : Word) : (s.setSp x).su = if s.ps.mode = .user then x else s.su := by
  cases hmode : s.ps.mode <;> simp [State.setSp, hmode]

theorem setSp_ss (s : State) (x : Word) : (s.setSp x).ss = if s.ps.mode = .user then s.ss else x := by
  cases hmode : s.ps.mode <;> simp [State.setSp, hmode]

/-- The commit member by member (R353, D14): `v k` is the word popped for member `k`, `sp` the incremented pointer. -/
theorem commitSpecial_eq {u : State} (sp : Word) (hlength : words.length = maskCount mask)
    (hv : ∀ k < 4, mask.getLsbD k = true → v k = words.getD (maskAbove mask k) 0#16) :
    u.commitSpecial mask sp words =
      match if mask.getLsbD 1 then u.ps.write? (v 1) else some u.ps with
      | none => .refused .reservedMode
      | some ps => .next
          { u with
            ps := ps
            pc := if mask.getLsbD 0 then v 0 else u.pc
            su :=
              if mask.getLsbD 2 then v 2
              else if u.ps.mode = .user then (if mask.getLsbD 3 then v 3 else sp) else u.su
            ss := if u.ps.mode = .user then u.ss else if mask.getLsbD 3 then v 3 else sp } := by
  have h3 := takeIf_member hlength hv (k := 3) (by decide)
  have h2 := takeIf_member hlength hv (k := 2) (by decide)
  have h1 := takeIf_member hlength hv (k := 1) (by decide)
  have h0 := takeIf_member hlength hv (k := 0) (by decide)
  rw [maskAbove_succ_add mask 2 (by decide), maskAbove_three, List.drop_zero] at h3
  rw [maskAbove_succ_add mask 1 (by decide)] at h2
  rw [maskAbove_succ_add mask 0 (by decide)] at h1
  simp only [State.commitSpecial, h3, h2, h1, h0, getD_selected, setSp_su, setSp_ss]
  cases mask.getLsbD 1 with
  | false => simp
  | true => cases hwrite : u.ps.write? (v 1) <;> simp [hwrite]

end Commit

theorem exec_strSpecial (mask : BitVec 4) (s : State) :
    exec (.strSpecial mask) s =
      match s.popWords s.ps.mode s.sp (maskCount mask) with
      | .done words t => t.commitSpecial mask (s.sp + BitVec.ofNat 16 (2 * maskCount mask)) words
      | .abort e t => .next (t.raiseFault e) := by
  have hcount : (selectDescending mask () () () ()).length = maskCount mask := by
    rw [selectDescending_eq mask fun _ => (), List.length_map, length_popOrder]
  rw [← hcount, BitVec.ofNat_mul]
  rfl

/-- Settles O28: one run of pops, and then the commit member by member; in supervisor mode it is refused where PS has no
status for its word. -/
theorem restoreSpecial : Obligations.RestoreSpecial := by
  intro s mask count after user commits
  have hexec := exec_strSpecial mask s
  have hdone : ∀ (words : List Word) (u : State) (v : Nat → Word), s.popWords s.ps.mode s.sp count = .done words u →
      (∀ k < 4, mask.getLsbD k = true → v k = words.getD (maskAbove mask k) 0#16) → commits u v := by
    intro words u v hpops hv
    have hsame : SameButMemory s u := popWords_same hpops
    have hpc : u.pc = s.pc := by rw [hsame]
    have hps : u.ps = s.ps := by rw [hsame]
    have hsu : u.su = s.su := by rw [hsame]
    have hss : u.ss = s.ss := by rw [hsame]
    rw [hpops] at hexec
    dsimp only at hexec
    rw [commitSpecial_eq after (popWords_length hpops) hv, hps, hpc, hsu, hss] at hexec
    refine ⟨fun hmode hselected hreserved => ?_, fun hdefined => ?_⟩
    · rw [hexec, if_pos hselected, write?_of_reserved (of_decide_eq_false hmode) hreserved]
    · cases hselected : mask.getLsbD 1 with
      | false =>
        refine ⟨s.ps, fun _ => rfl, nofun, nofun, ?_⟩
        rw [hexec, hselected]
        simp [user]
      | true =>
        have hwritten : s.ps.mode = .user ∨ (v 1).getLsbD 15 = false :=
          hdefined.imp of_decide_eq_true fun h => h.resolve_left (by rw [hselected]; nofun)
        obtain ⟨ps, hwrite, hsupervisor, huser⟩ := write?_of_defined hwritten
        refine ⟨ps, nofun, fun _ hmode => hsupervisor (of_decide_eq_false hmode),
          fun _ hmode => huser (of_decide_eq_true hmode), ?_⟩
        rw [hexec, if_pos hselected, hwrite]
        simp [user]
  refine ⟨decode_encode (.strSpecial mask), fun hne hodd => ?_, fun e u h => ⟨by rw [hexec, h], popWords_same h⟩,
    fun words u h =>
      ⟨popWords_same h, hdone words u (fun k => words.getD (maskAbove mask k) 0#16) h fun _ _ _ => rfl⟩,
    fun hmmu hsp hown => ?_⟩
  · rw [hexec, popWords_of_odd _ (mt (maskCount_eq_zero_iff mask).1 hne) hodd]
  · obtain ⟨words, hpops, hv⟩ := popWords_ownFrame s.ps.mode hmmu hsp hown
    exact hdone words s _ hpops hv

end Sys2Proof.Proofs
end

section
/-! PROOFS. Taking an exception: the entry sequence by its parts, what it changes, the frame it leaves, and the whole entry
where it meets no fault; on it the escalation of faults, the traps and the interrupts at a boundary. -/

namespace Sys2Proof.Proofs

open Sys2Proof.Machine Sys2Proof.Laws

/-! ## The entry by its parts -/

/-- Where the frame's pushes begin: the mode and the level already set (R480 steps 1 to 4). -/
theorem beginEntry_eq (s : State) (i : Interrupt) (address : Option Word) :
    s.beginEntry i address =
      { s with
        im := { s.im with clock := s.im.clock && decide (i ≠ .timer) }
        fa := address.getD s.fa
        ps := { s.ps with mode := .supervisor, level := i.newLevel s.ps.level } } := by
  by_cases h : i = .timer <;> simp [State.beginEntry, h]

/-- Steps 5 to 8 of the sequence: the pushes, SS and IC, then the vector's read (R480). -/
theorem enter_eq (s : State) (i : Interrupt) (cause : Word) (address : Option Word) :
    s.enter i cause address =
      ((s.beginEntry i address).pushWords .supervisor s.ss [s.pc, s.ps.toWord, s.ic]).bind fun sp t =>
        ({ t with ss := sp, ic := cause }.readWordAs .supervisor .read (t.vb + 2#16 * i.vector)).bind fun handler u =>
          .done () { u with pc := handler, asleep := false } := rfl

/-- The vector's read is a pop of one word. -/
theorem popWords_one (s : State) (p : Privilege) (sp : Word) :
    s.popWords p sp 1 = (s.readWordAs p .read sp).bind fun v t => .done [v] t := rfl

/-- A finished entry: the pushes finished and the vector was read. -/
theorem enter_eq_done {s t : State} {i : Interrupt} {cause : Word} {address : Option Word}
    (h : s.enter i cause address = .done () t) :
    SameButMemory
      { s.beginEntry i address with ss := s.ss - 6#16, ic := cause, pc := t.pc, asleep := false } t := by
  obtain ⟨sp, u, hpush, hrest⟩ := bind_eq_done h
  obtain ⟨v, w, hread, hdone⟩ := bind_eq_done hrest
  obtain ⟨-, rfl⟩ := Access.done.inj hdone
  have hsp : sp = s.ss - 6#16 := pushWords_sp hpush
  have hu : SameButMemory (s.beginEntry i address) u := pushWords_same hpush
  have hw : SameButMemory { u with ss := sp, ic := cause } w := by
    have hmemory := readWordAs_memory { u with ss := sp, ic := cause } .supervisor .read (u.vb + 2#16 * i.vector)
    rw [hread] at hmemory
    exact hmemory.1
  unfold SameButMemory at *
  rw [hw, hu, hsp]

/-- An entry that a fault ends: PS is already the handler's, and beside memory only SS and IC can differ (R487). -/
theorem enter_eq_abort {s t : State} {i : Interrupt} {cause : Word} {address : Option Word} {e : FaultCause}
    (h : s.enter i cause address = .abort e t) :
    SameButMemory { s.beginEntry i address with ss := t.ss, ic := t.ic } t := by
  rcases bind_eq_abort h with hpush | ⟨sp, u, hpush, hrest⟩
  · have ht : SameButMemory (s.beginEntry i address) t := pushWords_same hpush
    unfold SameButMemory at *
    rw [ht]
  · have hu : SameButMemory (s.beginEntry i address) u := pushWords_same hpush
    rcases bind_eq_abort hrest with hread | ⟨v, w, -, hdone⟩
    · have hmemory := readWordAs_memory { u with ss := sp, ic := cause } .supervisor .read (u.vb + 2#16 * i.vector)
      rw [hread] at hmemory
      have ht := hmemory.1
      unfold SameButMemory at *
      rw [final_abort] at ht
      rw [ht, hu]
    · cases hdone

/-! ## Levels -/

/-- A trap raises the level to its own, where it was lower (R491). -/
theorem newLevel_trap {i : Interrupt} (h : i = .swi ∨ i = .breakpoint ∨ i = .debugQuery) (level : BitVec 3) :
    i.newLevel level = if level.toNat < i.priority.toNat then i.priority else level := by
  rcases h with rfl | rfl | rfl <;> rfl

theorem newLevel_toNat (i : Interrupt) (level : BitVec 3) :
    (i.newLevel level).toNat =
      match i with
      | .hwi => 1
      | .timer => 2
      | .swi => max level.toNat 3
      | .breakpoint => max level.toNat 4
      | .debugQuery => max level.toNat 5
      | .unpriv | .undef | .page | .divZero | .align => 6
      | .double => 7 := by
  have hraised : ∀ own : BitVec 3,
      (if level.toNat < own.toNat then own else level).toNat = max level.toNat own.toNat := by
    intro own; split <;> omega
  cases i with
  | swi => exact hraised 3#3
  | breakpoint => exact hraised 4#3
  | debugQuery => exact hraised 5#3
  | _ => rfl

/-- Settles O47: a finished entry is the state at its beginning with the frame's stack pointer, the cause and the
    handler. -/
theorem entryEffect : Obligations.EntryEffect := by
  intro s t i cause address henter
  have heffect := enter_eq_done henter
  rw [beginEntry_eq] at heffect
  have hlevel : t.ps.level = i.newLevel s.ps.level := by rw [heffect]
  refine ⟨?_, by rw [hlevel]; exact newLevel_toNat i s.ps.level⟩
  rw [hlevel]
  exact heffect

/-! ## The frame, with the MMU off -/

/-- A write reaches the same RAM byte in states that differ in registers only. -/
theorem physWrite1_ram_congr {s t : State} (hp : t.platform = s.platform) (hw : t.sbc.windows = s.sbc.windows)
    (hram : t.ram = s.ram) (a : DWord) (v : Byte) : (t.physWrite1 a v).ram = (s.physWrite1 a v).ram := by
  have hkind : t.kindAt a = s.kindAt a := kindAt_congr hp hw a
  cases h : s.kindAt a <;> simp only [State.physWrite1, hkind, h, hram]

theorem physWrite2_eq (s : State) (a : DWord) (v : Word) :
    s.physWrite2 a v = { s with ram := (s.physWrite2 a v).ram } := by
  rw [State.physWrite2, physWrite1_same, physWrite1_same s]

theorem physWrite2_ram_congr {s t : State} (hp : t.platform = s.platform) (hw : t.sbc.windows = s.sbc.windows)
    (hram : t.ram = s.ram) (a : DWord) (v : Word) : (t.physWrite2 a v).ram = (s.physWrite2 a v).ram := by
  have hlow := physWrite1_ram_congr hp hw hram a (v.extractLsb' 0 8)
  refine physWrite1_ram_congr ?_ ?_ hlow (a + 1#32) (v.extractLsb' 8 8)
  · rw [physWrite1_same, physWrite1_same s]; exact hp
  · rw [physWrite1_same, physWrite1_same s]; exact hw

theorem storeDown_eq : ∀ (vs : List Word) (s : State) (sp : Word),
    s.storeDown sp vs = { s with ram := (s.storeDown sp vs).ram }
  | [], _, _ => rfl
  | v :: rest, s, sp => by
    rw [State.storeDown, storeDown_eq rest, physWrite2_eq]

theorem storeDown_ram_congr : ∀ (vs : List Word) {s t : State} (sp : Word), t.platform = s.platform →
    t.sbc.windows = s.sbc.windows → t.ram = s.ram → (t.storeDown sp vs).ram = (s.storeDown sp vs).ram
  | [], _, _, _, _, _, hram => hram
  | v :: rest, s, t, sp, hp, hw, hram => by
    refine storeDown_ram_congr rest (sp - 2#16) ?_ ?_ (physWrite2_ram_congr hp hw hram _ v)
    · rw [physWrite2_eq, physWrite2_eq s]; exact hp
    · rw [physWrite2_eq, physWrite2_eq s]; exact hw

/-- The frame of an entry is the run of its three pushes (R480 step 5). -/
theorem framed_eq (s : State) : s.framed = s.storeDown s.ss [s.pc, s.ps.toWord, s.ic] := by
  have hfour : s.ss - 2#16 - 2#16 = s.ss - 4#16 := by bv_omega
  have hsix : s.ss - 4#16 - 2#16 = s.ss - 6#16 := by bv_omega
  simp only [State.storeDown, State.framed, hfour, hsix]

theorem framed_same (s : State) : s.framed = { s with ram := s.framed.ram } := by
  rw [framed_eq]; exact storeDown_eq _ _ _

/-- The pushes of an entry, with the MMU off and SS even. -/
theorem beginEntry_pushes {s : State} (i : Interrupt) (address : Option Word) (hmmu : s.ps.mmu = false)
    (heven : s.ss.getLsbD 0 = false) :
    (s.beginEntry i address).pushWords .supervisor s.ss [s.pc, s.ps.toWord, s.ic] =
      .done (s.ss - 6#16) { s.beginEntry i address with ram := s.framed.ram } := by
  have hram : ((s.beginEntry i address).storeDown s.ss [s.pc, s.ps.toWord, s.ic]).ram = s.framed.ram := by
    rw [framed_eq]; exact storeDown_ram_congr _ _ rfl rfl rfl
  rw [pushWords_mmuOff _ _ (s.beginEntry i address) _ hmmu (.inr heven), storeDown_eq, hram]
  rfl

theorem getLsbD_zero_add_vector (vb : Word) (i : Interrupt) : (vb + 2#16 * i.vector).getLsbD 0 = vb.getLsbD 0 := by
  have hmod : (vb + 2#16 * i.vector).toNat % 2 = vb.toNat % 2 := by
    rw [BitVec.toNat_add, BitVec.toNat_mul]
    simp only [BitVec.toNat_ofNat]
    omega
  simp only [BitVec.getLsbD, Nat.testBit_zero, hmod]

/-- The whole entry where it meets no fault (R480): the state the statements write out, and FA where an address is
    given. -/
theorem enter_of_plain {s : State} {i : Interrupt} (cause : Word) (address : Option Word) (h : s.entryPlain i = true) :
    s.enter i cause address =
      .done () { s.entered i cause (i.newLevel s.ps.level) with fa := address.getD s.fa } := by
  simp only [State.entryPlain, Bool.and_eq_true, Bool.not_eq_true'] at h
  obtain ⟨⟨⟨hmmu, hss⟩, hvb⟩, hvector⟩ := h
  have hframed := framed_same s
  generalize hu : ({ s.beginEntry i address with ram := s.framed.ram, ss := s.ss - 6#16, ic := cause } : State) = u
  have hread := readWordAs_mmuOff (s := u) .supervisor (va := s.vb + 2#16 * i.vector) (by rw [← hu]; exact hmmu)
    ((getLsbD_zero_add_vector s.vb i).trans hvb) (by rw [← hu]; exact hvector)
  have hword : u.wordAt ((s.vb + 2#16 * i.vector).setWidth 32) =
      s.framed.wordAt ((s.vb + 2#16 * i.vector).setWidth 32) := by
    have hbyte : ∀ a, u.byteAt a = s.framed.byteAt a := by
      intro a
      rw [← hu, hframed]
      exact byteAt_congr rfl rfl rfl rfl a
    rw [State.wordAt, hbyte, hbyte, ← State.wordAt]
  rw [hword] at hread
  rw [enter_eq, beginEntry_pushes i address hmmu hss, bind_done]
  simp only [hu]
  have hvb : (s.beginEntry i address).vb = s.vb := rfl
  rw [hvb, hread, bind_done, State.entered, ← hu, beginEntry_eq]
  rw [hframed]

/-! ## The frame read back -/

/-- A byte of a word below another in the stack is none of the other's: no even address is the last of the 64 KiB. -/
theorem stackByte_ne {sp : Word} {k : Word} {i j : Nat} (heven : sp.getLsbD 0 = false) (hk : k = 2#16 ∨ k = 4#16)
    (hi : i < 2) (hj : j < 2) :
    (sp.setWidth 32 : DWord) + BitVec.ofNat 32 i ≠ (sp - k).setWidth 32 + BitVec.ofNat 32 j := by
  have hmod : sp.toNat % 2 = 0 := by simpa [BitVec.getLsbD, Nat.testBit_zero] using heven
  rcases hk with rfl | rfl <;> bv_omega

theorem wordAt_physWrite2_below {s : State} {sp k : Word} (v : Word) (heven : sp.getLsbD 0 = false)
    (hk : k = 2#16 ∨ k = 4#16) :
    (s.physWrite2 ((sp - k).setWidth 32) v).wordAt (sp.setWidth 32) = s.wordAt (sp.setWidth 32) := by
  have hbyte : ∀ i < 2, (s.physWrite2 ((sp - k).setWidth 32) v).byteAt (sp.setWidth 32 + BitVec.ofNat 32 i) =
      s.byteAt (sp.setWidth 32 + BitVec.ofNat 32 i) := fun i hi =>
    byteAt_physWrite2_of_ne s v (by simpa using stackByte_ne heven hk hi (j := 0) (by decide))
      (stackByte_ne heven hk hi (j := 1) (by decide))
  have hlow := hbyte 0 (by decide)
  have hhigh := hbyte 1 (by decide)
  rw [BitVec.add_zero] at hlow
  rw [State.wordAt, hlow, hhigh, State.wordAt]

/-- Each word of a frame in RAM reads back (R480 step 5). -/
theorem framed_words {s : State} (heven : s.ss.getLsbD 0 = false) (hwf : s.ram.wf = true)
    (hpc : s.ramWord ((s.ss - 2#16).setWidth 32) = true) (hps : s.ramWord ((s.ss - 4#16).setWidth 32) = true)
    (hic : s.ramWord ((s.ss - 6#16).setWidth 32) = true) :
    s.framed.wordAt ((s.ss - 2#16).setWidth 32) = s.pc ∧
    s.framed.wordAt ((s.ss - 4#16).setWidth 32) = s.ps.toWord ∧
    s.framed.wordAt ((s.ss - 6#16).setWidth 32) = s.ic := by
  have htwo : (s.ss - 2#16).getLsbD 0 = false := (getLsbD_zero_sub_two s.ss).trans heven
  have hfourtwo : s.ss - 4#16 = s.ss - 2#16 - 2#16 := by bv_omega
  have hsixtwo : s.ss - 6#16 = s.ss - 2#16 - 4#16 := by bv_omega
  have hsixfour : s.ss - 6#16 = s.ss - 4#16 - 2#16 := by bv_omega
  have hfour : (s.ss - 4#16).getLsbD 0 = false := by rw [hfourtwo, getLsbD_zero_sub_two, htwo]
  have hwf1 := (physWrite2_memory s ((s.ss - 2#16).setWidth 32) s.pc).2.1 hwf
  have hwf2 := (physWrite2_memory _ ((s.ss - 4#16).setWidth 32) s.ps.toWord).2.1 hwf1
  unfold State.framed
  refine ⟨?_, ?_, wordAt_physWrite2 _ hwf2 (by rw [physWrite2_ramWord, physWrite2_ramWord, hic])⟩
  · rw [hsixtwo, wordAt_physWrite2_below _ htwo (.inr rfl), hfourtwo, wordAt_physWrite2_below _ htwo (.inl rfl)]
    exact wordAt_physWrite2 _ hwf hpc
  · rw [hsixfour, wordAt_physWrite2_below _ hfour (.inl rfl)]
    exact wordAt_physWrite2 _ hwf1 (by rw [physWrite2_ramWord, hps])

theorem framed_sameBytesOutside {s : State} (heven : s.ss.getLsbD 0 = false) :
    SameBytesOutside s s.framed (StackBytes (s.ss - 6#16) 6) := by
  rw [framed_eq]
  exact storeDown_sameBytesOutside [s.pc, s.ps.toWord, s.ic] s s.ss (.inr heven)

/-- With the MMU off a read changes the draw counter at most. -/
theorem readWordAs_mmuOff_done {s t : State} {p : Privilege} {k : AccessKind} {va v : Word} (hmmu : s.ps.mmu = false)
    (h : s.readWordAs p k va = .done v t) : t = { s with draws := t.draws } := by
  cases hodd : va.getLsbD 0 with
  | true =>
    rw [readWordAs_of_odd p k hodd] at h
    cases h
  | false =>
    obtain ⟨w, n, -, hread⟩ := readWordAs_some hodd (allows_mmuOff p k va hmmu)
    rw [hread, touched_mmuOff p k va hmmu] at h
    obtain ⟨-, rfl⟩ := Access.done.inj h
    rfl

/-- A finished entry with the MMU off leaves in memory what its frame does. -/
theorem byteAt_of_enter {s t : State} {i : Interrupt} {cause : Word} {address : Option Word} (hmmu : s.ps.mmu = false)
    (h : s.enter i cause address = .done () t) :
    s.ss.getLsbD 0 = false ∧ ∀ a, t.byteAt a = s.framed.byteAt a := by
  cases hss : s.ss.getLsbD 0 with
  | true =>
    rw [enter_eq, pushWords_of_odd _ (List.cons_ne_nil _ _) hss, bind_abort] at h
    cases h
  | false =>
    refine ⟨rfl, fun a => ?_⟩
    rw [enter_eq, beginEntry_pushes i address hmmu hss, bind_done] at h
    obtain ⟨v, u, hread, hdone⟩ := bind_eq_done h
    obtain ⟨-, rfl⟩ := Access.done.inj hdone
    have hstate := readWordAs_mmuOff_done (by exact hmmu) hread
    rw [hstate, framed_same]
    exact byteAt_congr rfl rfl rfl rfl a

theorem wordAt_of_bytes {s t : State} (h : ∀ a, t.byteAt a = s.byteAt a) (a : DWord) : t.wordAt a = s.wordAt a := by
  rw [State.wordAt, h, h, ← State.wordAt]

/-- Settles O48: the parts of the entry, and its frame in memory. -/
theorem entryFrame : Obligations.EntryFrame := by
  intro s i cause address number raised level begun pushes
  have hnumber : i.vector = number := by cases i <;> rfl
  have hlevel : i.newLevel s.ps.level = level := by cases i <;> rfl
  have hbegun : s.beginEntry i address = begun := by rw [beginEntry_eq, hlevel]
  have hpushes : (s.beginEntry i address).pushWords .supervisor s.ss [s.pc, s.ps.toWord, s.ic] = pushes := by
    rw [hbegun]
  refine ⟨hnumber, ?_, fun e t h => pushWords_same h, fun sp t h => ⟨pushWords_sp h, pushWords_same h⟩,
    fun t hmmu hwf hpc hps hic henter => ?_⟩
  · rw [enter_eq, hpushes]
    cases hdone : pushes with
    | abort e t => rfl
    | done sp t =>
      have hsame : SameButMemory begun t := pushWords_same hdone
      have hvb : t.vb = s.vb := by rw [hsame]
      rw [bind_done, ← hvb, ← hnumber]
      simp only [popWords_one]
      cases ({ t with ss := sp, ic := cause } : State).readWordAs .supervisor .read (t.vb + 2#16 * i.vector) <;> rfl
  · obtain ⟨heven, hbytes⟩ := byteAt_of_enter hmmu henter
    obtain ⟨hwordPc, hwordPs, hwordIc⟩ := framed_words heven hwf hpc hps hic
    refine ⟨?_, ?_, ?_, by rw [enter_eq_done henter], fun a ha => ?_⟩
    · rw [wordAt_of_bytes hbytes, hwordPc]
    · rw [wordAt_of_bytes hbytes, hwordPs]
    · rw [wordAt_of_bytes hbytes, hwordIc]
    · rw [hbytes]; exact framed_sameBytesOutside heven a ha

/-! ## Escalation of faults -/

theorem framed_ram_congr {s t : State} (hp : t.platform = s.platform) (hw : t.sbc.windows = s.sbc.windows)
    (hram : t.ram = s.ram) (hss : t.ss = s.ss) (hpc : t.pc = s.pc) (hps : t.ps = s.ps) (hic : t.ic = s.ic) :
    t.framed.ram = s.framed.ram := by
  rw [framed_eq, framed_eq, hss, hpc, hps, hic]
  exact storeDown_ram_congr _ _ hp hw hram

/-- A plain entry reads neither the sleep state nor the DebugQuery latch nor the draw counter, and ends the sleep. -/
theorem entered_with (s : State) (asleep latch : Bool) (n : Nat) (i : Interrupt) (cause : Word) (level : BitVec 3) :
    { s with asleep := asleep, debugLatch := latch, draws := n }.entered i cause level =
      { s.entered i cause level with debugLatch := latch, draws := n } := by
  generalize ht : ({ s with asleep := asleep, debugLatch := latch, draws := n } : State) = t
  have hram : t.framed.ram = s.framed.ram := by subst ht; exact framed_ram_congr rfl rfl rfl rfl rfl rfl rfl
  have hframed : t.framed = { t with ram := s.framed.ram } := by rw [framed_same t, hram]
  have hbytes : ∀ a, t.framed.byteAt a = s.framed.byteAt a := by
    intro a
    rw [hframed, framed_same s, ← ht]
    exact byteAt_congr rfl rfl rfl rfl a
  rw [State.entered, wordAt_of_bytes hbytes, hframed, State.entered, framed_same s, ← ht]

theorem entered_same (s : State) (i : Interrupt) (cause : Word) (level : BitVec 3) :
    s.entered i cause level =
      { s with
        ram := (s.entered i cause level).ram
        pc := (s.entered i cause level).pc
        ps := { s.ps with mode := .supervisor, level := level }
        ss := s.ss - 6#16
        ic := cause
        im := { s.im with clock := s.im.clock && decide (i ≠ .timer) }
        asleep := false } := by
  rw [State.entered, framed_same]

/-- What FA becomes on a fault: the address of a PageFault, a free value for the others (R483, U6). -/
theorem faultAddress_state (s : State) (e : FaultCause) :
    (s.faultAddress e).2 = { s with draws := (s.faultAddress e).2.draws } := by
  cases e <;> rfl

theorem faultAddress_of_not_page (s : State) {e : FaultCause} (h : ∀ c a, e ≠ .page c a) :
    s.faultAddress e = s.drawWord := by
  cases e with
  | page c a => exact absurd rfl (h c a)
  | _ => rfl

theorem cause_of_not_page {e : FaultCause} (u : Bool) (h : ∀ c a, e ≠ .page c a) : e.cause u = userCause u := by
  cases e with
  | page c a => exact absurd rfl (h c a)
  | _ => rfl

/-- The cause word with bit 0 alone (R462). -/
theorem userCause_eq (s : State) : userCause s.inUser = if s.ps.mode = .user then 1#16 else 0#16 := by
  cases h : s.ps.mode <;> simp [State.inUser, h] <;> rfl

theorem newLevel_fault (e : FaultCause) (level : BitVec 3) : e.interrupt.newLevel level = 6#3 := by
  cases e <;> rfl

theorem raiseFault_of_level_six {s : State} (e : FaultCause) (h : s.ps.level.toNat = 6) :
    s.raiseFault e = s.doubleFault := by
  simp [State.raiseFault, h]

theorem raiseFault_of_level_seven {s : State} (e : FaultCause) (h : s.ps.level.toNat = 7) :
    s.raiseFault e = s.tripleFault := by
  simp [State.raiseFault, h]

/-- The level an entry that a fault ends has set. -/
theorem level_of_enter_abort {s t : State} {i : Interrupt} {cause : Word} {address : Option Word} {e : FaultCause}
    (h : s.enter i cause address = .abort e t) : t.ps.level = i.newLevel s.ps.level := by
  have hsame := enter_eq_abort h
  rw [hsame]
  rfl

/-- At level 5 or lower a fault is its own entry, and a fault inside that entry is raised at level 6 (R487, R492). -/
theorem raiseFault_of_level_low {s : State} (e : FaultCause) (h : s.ps.level.toNat ≤ 5) :
    s.raiseFault e =
      match (s.faultAddress e).2.enter e.interrupt (e.cause s.inUser) (some (s.faultAddress e).1) with
      | .done _ t => t
      | .abort x t => t.raiseFault x := by
  rw [State.raiseFault, if_pos h]
  dsimp only
  cases henter : (s.faultAddress e).2.enter e.interrupt (e.cause s.inUser) (some (s.faultAddress e).1) with
  | done _ t => rfl
  | abort x t =>
    have hsix : t.ps.level.toNat = 6 := by rw [level_of_enter_abort henter, newLevel_fault]; rfl
    exact (raiseFault_of_level_six x hsix).symm

theorem raiseFault_of_plain {s : State} {e : FaultCause} (hlevel : s.ps.level.toNat ≤ 5)
    (h : s.entryPlain e.interrupt = true) :
    s.raiseFault e =
      { s.entered e.interrupt (e.cause s.inUser) 6#3 with
        fa := (s.faultAddress e).1, draws := (s.faultAddress e).2.draws } := by
  have hplain : { s with draws := (s.faultAddress e).2.draws }.entryPlain e.interrupt = true := h
  rw [raiseFault_of_level_low e hlevel, faultAddress_state, enter_of_plain _ _ hplain]
  dsimp only
  rw [entered_with s s.asleep s.debugLatch, newLevel_fault, entered_same s]
  rfl

theorem doubleFault_of_plain {s : State} (h : s.entryPlain .double = true) :
    s.doubleFault = { s.entered .double 0#16 7#3 with fa := Config.freeWord s.draws, draws := s.draws + 1 } := by
  have hplain : { s with draws := s.draws + 1 }.entryPlain .double = true := h
  rw [State.doubleFault, State.drawWord]
  dsimp only
  rw [enter_of_plain _ _ hplain]
  dsimp only
  have hseven : Interrupt.double.newLevel s.ps.level = 7#3 := rfl
  rw [entered_with s s.asleep s.debugLatch, hseven, entered_same s]
  rfl

/-- Settles O46: the branch each level takes, and the entries where they are plain. -/
theorem faultEscalation : Obligations.FaultEscalation := by
  intro s e user event
  have huser : userCause s.inUser = user := userCause_eq s
  have hevent : e.interrupt = event := by cases e <;> rfl
  have hpage : ∀ c a, e = .page c a →
      e.cause s.inUser = c ∧ (s.faultAddress e).1 = a ∧ (s.faultAddress e).2.draws = s.draws := by
    rintro c a rfl
    exact ⟨rfl, rfl, rfl⟩
  have hother : (∀ c a, e ≠ .page c a) →
      e.cause s.inUser = user ∧ (s.faultAddress e).2.draws = s.draws + 1 := fun hne =>
    ⟨(cause_of_not_page _ hne).trans huser, by rw [faultAddress_of_not_page s hne]; rfl⟩
  refine ⟨fun hlevel => ⟨_, _, _, hpage, hother, ?_⟩, fun hlevel => ⟨Config.freeWord s.draws, ?_⟩,
    fun hlevel hplain => ?_,
    fun hlevel hplain => ⟨_, by rw [raiseFault_of_level_six e hlevel, doubleFault_of_plain hplain]⟩,
    fun hlevel => raiseFault_of_level_seven e hlevel⟩
  · rw [← hevent, ← faultAddress_state]
    exact raiseFault_of_level_low e hlevel
  · rw [raiseFault_of_level_six e hlevel]; rfl
  · have hraise := raiseFault_of_plain hlevel (hevent ▸ hplain)
    rw [hraise]
    refine ⟨fun c a he => ?_, fun hne => ⟨(s.faultAddress e).1, ?_⟩⟩
    · obtain ⟨hcause, hfa, hdraws⟩ := hpage c a he
      have hinterrupt : e.interrupt = .page := by rw [he]; rfl
      rw [hcause, hfa, hdraws, hinterrupt, entered_same s]
    · obtain ⟨hcause, hdraws⟩ := hother hne
      rw [hcause, hdraws, hevent]

/-! ## Traps -/

theorem takeInterrupt_of_plain {s : State} {i : Interrupt} (cause : Word) (h : s.entryPlain i = true) :
    s.takeInterrupt i cause = s.entered i cause (i.newLevel s.ps.level) := by
  rw [State.takeInterrupt, enter_of_plain cause none h]
  dsimp only
  rw [entered_same s]
  rfl

/-- The cause word of a breakpoint by its number (R462). -/
theorem breakCause_eq (u : Bool) (imm : BitVec 6) : breakCause u imm = BitVec.ofNat 16 (4 * imm.toNat + u.toNat) := by
  have hnumber : (breakCause u imm).toNat = 4 * imm.toNat + u.toNat := by
    unfold breakCause
    iterate 3 rw [toNat_append_eq_mul_add]
    simp only [BitVec.toNat_ofNat, BitVec.toNat_ofBool]
    omega
  rw [← hnumber, BitVec.ofNat_toNat, BitVec.setWidth_eq]

/-- Settles O45: SWI and BRK are their entries, which are plain where the statement writes them out. -/
theorem trapEntry : Obligations.TrapEntry := by
  intro s imm user enters
  have huser : s.inUser.toNat = user := by
    cases h : s.ps.mode <;> simp [State.inUser, user, h]
  have hswi : userCause s.inUser = BitVec.ofNat 16 user := by
    rw [← huser]; cases s.inUser <;> rfl
  have hbrk : breakCause s.inUser imm = BitVec.ofNat 16 (4 * imm.toNat + user) := by
    rw [breakCause_eq, huser]
  have henters : ∀ (i : Instr) (event : Interrupt) (cause : Word),
      exec i s = .next (s.takeInterrupt event cause) → enters i event cause := by
    intro i event cause hexec
    dsimp only [enters]
    rw [hexec, State.takeInterrupt]
    cases s.enter event cause none <;> rfl
  have hexecSwi : exec .swi s = .next (s.takeInterrupt .swi (BitVec.ofNat 16 user)) := by rw [← hswi]; rfl
  have hexecBrk : exec (.brk imm) s =
      .next (s.takeInterrupt .breakpoint (BitVec.ofNat 16 (4 * imm.toNat + user))) := by rw [← hbrk]; rfl
  refine ⟨decode_encode .swi, decode_encode (.brk imm), henters _ _ _ hexecSwi, henters _ _ _ hexecBrk,
    fun hplain => ?_, fun hplain => ?_⟩
  · rw [hexecSwi, takeInterrupt_of_plain _ hplain, newLevel_trap (.inl rfl)]; rfl
  · rw [hexecBrk, takeInterrupt_of_plain _ hplain, newLevel_trap (.inr (.inl rfl))]; rfl

/-! ## Interrupts at a boundary -/

/-- A step that executes no instruction advances CL by a positive amount (R585, D20). -/
theorem idleTick_eq (s : State) :
    ∃ n > 0, s.idleTick = { s with cl := s.cl + BitVec.ofNat 32 n, draws := s.draws + 1 } :=
  ⟨1 + Config.idleCycles s.draws, Nat.add_pos_left Nat.zero_lt_one _, rfl⟩

/-- The step of an interrupt whose entry is plain; `latch` is the DebugQuery latch that the boundary leaves. -/
theorem interruptStep_of_plain {s : State} {i : Interrupt} (cause : Word) (latch : Bool) (h : s.entryPlain i = true) :
    ∃ n > 0, { s with debugLatch := latch }.interruptStep i cause =
      { s.entered i cause (i.newLevel s.ps.level) with
        debugLatch := latch, cl := s.cl + BitVec.ofNat 32 n, draws := s.draws + 1 } := by
  have hplain : { s with asleep := false, debugLatch := latch, draws := s.draws }.entryPlain i = true := h
  have hcl : (s.entered i cause (i.newLevel s.ps.level)).cl = s.cl := by rw [entered_same]
  have hentered : { s with asleep := false, debugLatch := latch, draws := s.draws }.takeInterrupt i cause =
      { s.entered i cause (i.newLevel s.ps.level) with debugLatch := latch, draws := s.draws } := by
    rw [takeInterrupt_of_plain cause hplain]
    exact entered_with s false latch s.draws i cause _
  generalize s.entered i cause (i.newLevel s.ps.level) = t at hcl hentered ⊢
  obtain ⟨n, hn, htick⟩ := idleTick_eq { t with debugLatch := latch, draws := s.draws }
  refine ⟨n, hn, ?_⟩
  calc { s with debugLatch := latch }.interruptStep i cause
    _ = ({ s with asleep := false, debugLatch := latch, draws := s.draws }.takeInterrupt i cause).idleTick := rfl
    _ = { t with debugLatch := latch, cl := s.cl + BitVec.ofNat 32 n, draws := s.draws + 1 } := by
      rw [hentered, htick, hcl]

theorem step_of_timer {s : State} (h : s.takeInputs.boundary = .timer) :
    step s = .next (s.takeInputs.interruptStep .timer 0#16) := by
  simp only [step, State.cycle, h]

theorem step_of_hwi {s : State} {k : Nat} (h : s.takeInputs.boundary = .hwi k) :
    step s = .next (s.takeInputs.interruptStep .hwi (BitVec.ofNat 16 k)) := by
  simp only [step, State.cycle, h]

theorem step_of_debugQuery {s : State} (h : s.takeInputs.boundary = .debugQuery) :
    step s = .next ({ s.takeInputs with debugLatch := false }.interruptStep .debugQuery 0#16) := by
  simp only [step, State.cycle, h]

theorem step_of_sleep {s : State} (h : s.takeInputs.boundary = .sleep) : step s = .next s.takeInputs.idleTick := by
  simp only [step, State.cycle, h]

/-- Settles O52: each boundary's step is its interrupt's, and that is its entry and the clock. -/
theorem asynchronousStep : Obligations.AsynchronousStep := by
  intro s t enters
  have henters : ∀ (q : State) (i : Interrupt) (cause : Word), step s = .next (q.interruptStep i cause) →
      enters { q with asleep := false } i cause := by
    intro q i cause hstep
    obtain ⟨n, hn, htick⟩ := idleTick_eq ({ q with asleep := false }.takeInterrupt i cause)
    refine ⟨n, hn, ?_⟩
    rw [hstep, State.interruptStep, htick]
    rfl
  have hplain : ∀ (i : Interrupt) (cause : Word) (latch : Bool) (level : BitVec 3), t.entryPlain i = true →
      step s = .next ({ t with debugLatch := latch }.interruptStep i cause) → i.newLevel t.ps.level = level →
      ∃ n > 0, step s = .next
        { t.entered i cause level with
          debugLatch := latch, cl := t.cl + BitVec.ofNat 32 n, draws := t.draws + 1 } := by
    intro i cause latch level hentry hstep hlevel
    obtain ⟨n, hn, hinterrupt⟩ := interruptStep_of_plain cause latch hentry
    exact ⟨n, hn, by rw [hstep, hinterrupt, hlevel]⟩
  have hlatch : ∀ (i : Interrupt) (cause : Word) (level : BitVec 3),
      (t.entered i cause level).debugLatch = t.debugLatch := by
    intro i cause level
    rw [entered_same]
  refine ⟨fun h => henters t _ _ (step_of_timer h), fun k h => henters t _ _ (step_of_hwi h),
    fun h => henters { t with debugLatch := false } _ _ (step_of_debugQuery h), fun h hentry => ?_, fun k h hentry => ?_,
    fun h hentry => hplain _ _ _ _ hentry (step_of_debugQuery h) (newLevel_trap (.inr (.inr rfl)) _), fun h => ?_⟩
  · have hstep := hplain .timer 0#16 t.debugLatch 2#3 hentry (step_of_timer h) rfl
    rwa [← hlatch .timer 0#16 2#3] at hstep
  · have hstep := hplain .hwi (BitVec.ofNat 16 k) t.debugLatch 1#3 hentry (step_of_hwi h) rfl
    rwa [← hlatch .hwi (BitVec.ofNat 16 k) 1#3] at hstep
  · obtain ⟨n, hn, htick⟩ := idleTick_eq t
    exact ⟨n, hn, by rw [step_of_sleep h, htick]⟩

end Sys2Proof.Proofs
end

section
/-! PROOFS. Returning from an exception: RTI as one run of pops and a commit, and a trap undone by its return. -/

namespace Sys2Proof.Proofs

open Sys2Proof.Machine Sys2Proof.Laws

/-! ## Returning from an exception -/

/-- PS read back from its own word (R38). -/
theorem ofWord?_toWord (p : Status) : Status.ofWord? p.toWord = some p := by
  have hbit := fun (j : Nat) (hj : j < 16) => getLsbD_toWord p hj
  have hmode : (if p.toWord.getLsbD 14 then Mode.supervisor else .user) = p.mode := by
    rw [hbit 14 (by decide), statusBit]
    cases p.mode <;> rfl
  have hlevel : p.toWord.extractLsb' 4 3 = p.level := by
    refine BitVec.eq_of_getLsbD_eq fun j hj => ?_
    rw [BitVec.getLsbD_extractLsb', hbit (4 + j) (by omega)]
    interval_cases j <;> rfl
  rw [Status.ofWord?, hbit 15 (by decide), hmode, hlevel, hbit 13 (by decide), hbit 12 (by decide), hbit 3 (by decide),
    hbit 2 (by decide), hbit 1 (by decide), hbit 0 (by decide)]
  rfl

/-- The pops of RTI are a run of three (R409). -/
theorem popFrame_eq (s : State) :
    s.popFrame =
      (s.popWords .supervisor s.ss 3).bind fun ws t => .done (ws.getD 0 0#16, ws.getD 1 0#16, ws.getD 2 0#16) t := by
  have hfour : s.ss + 2#16 + 2#16 = s.ss + 4#16 := by bv_omega
  simp only [State.popFrame, State.popWords, hfour]
  cases s.readWordAs .supervisor .read s.ss with
  | abort e t => rfl
  | done v t =>
    simp only [bind_done]
    cases t.readWordAs .supervisor .read (s.ss + 2#16) with
    | abort e u => rfl
    | done w u =>
      simp only [bind_done]
      cases u.readWordAs .supervisor .read (s.ss + 4#16) <;> rfl

/-- RTI in supervisor mode by its run of pops (R409). -/
theorem exec_rti {s : State} (h : s.ps.mode = .supervisor) :
    exec .rti s =
      match s.popWords .supervisor s.ss 3 with
      | .abort e t => .next (t.raiseFault e)
      | .done ws t =>
        match Status.ofWord? (ws.getD 1 0#16) with
        | some ps => .next { t with ss := s.ss + 6#16, ic := ws.getD 0 0#16, ps := ps, pc := ws.getD 2 0#16 }
        | none => .refused .reservedMode := by
  have hexec : exec .rti s = s.returnFromInterrupt := by
    have hmode : s.inUser = false := by simp [State.inUser, h]
    change execRti s = _
    rw [execRti, hmode]
    rfl
  rw [hexec, State.returnFromInterrupt, popFrame_eq]
  cases s.popWords .supervisor s.ss 3 with
  | abort e t => rfl
  | done ws t => cases h : Status.ofWord? (ws.getD 1 0#16) <;> simp only [bind_done, h]

theorem ofWord?_of_reserved {w : Word} (h : w.getLsbD 15 = true) : Status.ofWord? w = none := by
  rw [Status.ofWord?, if_pos h]

/-- Settles O49: one run of three pops, and then the commit, which PS's word may refuse. -/
theorem returnFromInterrupt : Obligations.ReturnFromInterrupt := by
  intro s hmode at_
  have hexec := exec_rti hmode
  have hdone : ∀ (ic psWord pc : Word) (u : State), s.popWords .supervisor s.ss 3 = .done [ic, psWord, pc] u →
      (psWord.getLsbD 15 = true → exec .rti s = .refused .reservedMode) ∧
      (psWord.getLsbD 15 = false →
        ∃ ps : Status, ps.toWord = psWord &&& 0xF07F#16 ∧
          exec .rti s = .next { u with ss := s.ss + 6#16, ic := ic, ps := ps, pc := pc }) := by
    intro ic psWord pc u hpops
    rw [hpops] at hexec
    refine ⟨fun hreserved => ?_, fun hdefined => ?_⟩
    · rw [hexec]
      simp only [List.getD_cons_succ, List.getD_cons_zero, ofWord?_of_reserved hreserved]
    · obtain ⟨ps, hps, hword⟩ := ofWord?_of_defined hdefined
      refine ⟨ps, hword, ?_⟩
      rw [hexec]
      simp only [List.getD_cons_succ, List.getD_cons_zero, hps]
  refine ⟨decode_encode .rti, fun hodd => ?_, fun e u hpops => ⟨by rw [hexec, hpops], popWords_same hpops⟩,
    fun ic psWord pc u hpops => ⟨popWords_same hpops, hdone ic psWord pc u hpops⟩, fun hmmu heven hown => ?_⟩
  · rw [hexec, popWords_of_odd .supervisor (by decide) hodd]
  · have hframe : ∀ j < 3, s.ownWord ((s.ss + BitVec.ofNat 16 (2 * j)).setWidth 32) = true := by
      simpa [State.ownFrame, sp_of_supervisor hmode] using hown
    exact hdone _ _ _ s (popWords_mmuOff .supervisor hmmu 3 s.ss (.inr heven) hframe)

/-! ## A trap and its return -/

theorem ownWord_of_ramWord {s : State} {a : DWord} (h : s.ramWord a = true) : s.ownWord a = true := by
  obtain ⟨hlow, hhigh⟩ := (ramWord_iff s a).1 h
  simp only [State.ownWord, State.ownByte, hlow, hhigh, Bool.and_self]

/-- RTI from a frame that holds the words of a status, with the MMU off. -/
theorem exec_rti_frame {s : State} {ps : Status} (hmode : s.ps.mode = .supervisor) (hmmu : s.ps.mmu = false)
    (heven : s.ss.getLsbD 0 = false) (hic : s.ramWord (s.ss.setWidth 32) = true)
    (hps : s.ramWord ((s.ss + 2#16).setWidth 32) = true) (hpc : s.ramWord ((s.ss + 4#16).setWidth 32) = true)
    (hword : s.wordAt ((s.ss + 2#16).setWidth 32) = ps.toWord) :
    exec .rti s = .next
      { s with
        ss := s.ss + 6#16
        ic := s.wordAt (s.ss.setWidth 32)
        ps := ps
        pc := s.wordAt ((s.ss + 4#16).setWidth 32) } := by
  have hframe : ∀ j < 3, s.ownWord ((s.ss + BitVec.ofNat 16 (2 * j)).setWidth 32) = true := by
    intro j hj
    interval_cases j
    · simpa using ownWord_of_ramWord hic
    · exact ownWord_of_ramWord hps
    · exact ownWord_of_ramWord hpc
  rw [exec_rti hmode, popWords_mmuOff .supervisor hmmu 3 s.ss (.inr heven) hframe]
  simp [List.range_succ, hword, ofWord?_toWord]

/-- Settles O50: the handler's first state is the plain entry, whose frame RTI finds in RAM. -/
theorem swiThenRti : Obligations.SwiThenRti := by
  intro s t hplain hwf hpc hps hic hexec
  have ht : t = s.entered .swi (userCause s.inUser) (Interrupt.swi.newLevel s.ps.level) := by
    have hswi : exec .swi s = .next (s.takeInterrupt .swi (userCause s.inUser)) := rfl
    rw [hswi, takeInterrupt_of_plain _ hplain] at hexec
    cases hexec
    rfl
  simp only [State.entryPlain, Bool.and_eq_true, Bool.not_eq_true'] at hplain
  obtain ⟨⟨⟨hmmu, heven⟩, -⟩, -⟩ := hplain
  have hbytes : ∀ a, t.byteAt a = s.framed.byteAt a := by
    intro a
    rw [ht, State.entered, framed_same]
    exact byteAt_congr rfl rfl rfl rfl a
  obtain ⟨hwordPc, hwordPs, hwordIc⟩ := framed_words heven hwf hpc hps hic
  rw [entered_same] at ht
  have hss : t.ss = s.ss - 6#16 := by rw [ht]
  have hram : ∀ a, t.ramWord a = s.ramWord a := by intro a; rw [ht]; rfl
  have hpsAt : t.ss + 2#16 = s.ss - 4#16 := by rw [hss]; bv_omega
  have hpcAt : t.ss + 4#16 = s.ss - 2#16 := by rw [hss]; bv_omega
  have hback : t.ss + 6#16 = s.ss := by rw [hss, BitVec.sub_add_cancel]
  have heven' : t.ss.getLsbD 0 = false := by
    have hsub : t.ss = s.ss - 2#16 - 2#16 - 2#16 := by rw [hss]; bv_omega
    rw [hsub, getLsbD_zero_sub_two, getLsbD_zero_sub_two, getLsbD_zero_sub_two, heven]
  refine ⟨?_, fun a ha => (hbytes a).trans (framed_sameBytesOutside heven a ha)⟩
  rw [exec_rti_frame (ps := s.ps) (by rw [ht]) (by rw [ht]; exact hmmu) heven' (by rw [hss, hram, hic])
    (by rw [hpsAt, hram, hps]) (by rw [hpcAt, hram, hpc]) (by rw [hpsAt, wordAt_of_bytes hbytes, hwordPs]), hback,
    hpcAt, hss, wordAt_of_bytes hbytes, wordAt_of_bytes hbytes, hwordPc, hwordIc, ht]
  simp

end Sys2Proof.Proofs
end

section
/-! PROOFS. What an instruction in user mode can change: either what user code may write, or a handler was entered. -/

namespace Sys2Proof.Proofs

open Sys2Proof.Machine Sys2Proof.Laws

/-! ## The two relations -/

/-- Beside what user code may write (registers, PC, the flags, SU, memory) only Reset can have become pending. -/
def UserStep (s t : State) : Prop :=
  t =
    { s with
      regs := t.regs, pc := t.pc, su := t.su, ram := t.ram, draws := t.draws, resetPending := t.resetPending
      ps := { s.ps with n := t.ps.n, z := t.ps.z, c := t.ps.c, v := t.ps.v } }

/-- The state is a handler's: supervisor mode, and beside the registers of an entry only what user code may write has
changed. -/
def HandlerFrame (s t : State) : Prop :=
  t =
    { s with
      regs := t.regs, pc := t.pc, su := t.su, ram := t.ram, draws := t.draws, resetPending := t.resetPending
      ss := t.ss, ic := t.ic, fa := t.fa, asleep := t.asleep
      ps :=
        { s.ps with mode := .supervisor, level := t.ps.level, n := t.ps.n, z := t.ps.z, c := t.ps.c, v := t.ps.v } }

/-- A handler at level 3 or above was entered, or the entry of a DoubleFault met a fault (R490 to R492). -/
structure HandlerStep (s t : State) : Prop where
  frame : HandlerFrame s t
  level : 3 ≤ t.ps.level.toNat
  ended :
    (∃ (q : State) (event : Interrupt) (cause : Word) (address : Option Word), q.enter event cause address = .done () t) ∨
      (t.resetPending = true ∧ t.ps.level.toNat = 7)

theorem UserStep.trans {s t u : State} (h : UserStep s t) (k : UserStep t u) : UserStep s u := by
  unfold UserStep at *
  rw [k, h]

theorem UserStep.handlerFrame {s t u : State} (h : UserStep s t) (k : HandlerFrame t u) : HandlerFrame s u := by
  unfold UserStep at h
  unfold HandlerFrame at *
  rw [k, h]

theorem HandlerFrame.trans {s t u : State} (h : HandlerFrame s t) (k : HandlerFrame t u) : HandlerFrame s u := by
  unfold HandlerFrame at *
  rw [k, h]

theorem HandlerStep.after {s t u : State} (h : UserStep s t) (k : HandlerStep t u) : HandlerStep s u :=
  { k with frame := h.handlerFrame k.frame }

theorem HandlerStep.within {s t u : State} (h : HandlerFrame s t) (k : HandlerStep t u) : HandlerStep s u :=
  { k with frame := h.trans k.frame }

theorem UserStep.mode {s t : State} (h : UserStep s t) : t.ps.mode = s.ps.mode := by
  unfold UserStep at h
  rw [h]

theorem userStep_of_memory {s t : State} (h : MemoryStep s t) : UserStep s t := by
  have hsame := h.1
  unfold SameButMemory at hsame
  unfold UserStep
  rw [hsame]

theorem setSp_userStep {s : State} (v : Word) (h : s.ps.mode = .user) : UserStep s (s.setSp v) := by
  rw [setSp_of_user v h]
  rfl

/-! ## Entries and faults -/

/-- Every entry but those of Timer and HWI sets a level of 3 or above (R490 to R492). -/
theorem three_le_newLevel {i : Interrupt} (htimer : i ≠ .timer) (hhwi : i ≠ .hwi) (level : BitVec 3) :
    3 ≤ (i.newLevel level).toNat := by
  rw [newLevel_toNat]
  cases i with
  | timer => exact absurd rfl htimer
  | hwi => exact absurd rfl hhwi
  | swi | breakpoint | debugQuery | unpriv | undef | page | divZero | align | double => dsimp only; omega

theorem beginEntry_handlerFrame (s : State) {i : Interrupt} (address : Option Word) (h : i ≠ .timer) :
    HandlerFrame s (s.beginEntry i address) := by
  unfold HandlerFrame
  rw [beginEntry_eq]
  simp [h]

section Enter

variable {s t : State} {i : Interrupt} {cause : Word} {address : Option Word}

theorem enter_abort_frame {e : FaultCause} (hi : i ≠ .timer) (h : s.enter i cause address = .abort e t) :
    HandlerFrame s t := by
  refine (beginEntry_handlerFrame s address hi).trans ?_
  have hsame := enter_eq_abort h
  unfold SameButMemory at hsame
  unfold HandlerFrame
  rw [hsame]
  rfl

theorem enter_done_step (htimer : i ≠ .timer) (hhwi : i ≠ .hwi) (h : s.enter i cause address = .done () t) :
    HandlerStep s t := by
  have hsame := enter_eq_done h
  unfold SameButMemory at hsame
  have hlevel : t.ps.level = i.newLevel s.ps.level := by rw [hsame]; rfl
  refine ⟨(beginEntry_handlerFrame s address htimer).trans ?_, by rw [hlevel]; exact three_le_newLevel htimer hhwi _,
    .inl ⟨s, i, cause, address, h⟩⟩
  unfold HandlerFrame
  rw [hsame]
  rfl

end Enter

theorem tripleFault_step {s : State} (hmode : s.ps.mode = .supervisor) (hlevel : s.ps.level.toNat = 7) :
    HandlerStep s s.tripleFault := by
  refine ⟨?_, by rw [tripleFault_ps, hlevel]; decide, .inr ⟨rfl, hlevel⟩⟩
  unfold HandlerFrame
  rw [← hmode]
  rfl

theorem HandlerFrame.mode {s t : State} (h : HandlerFrame s t) : t.ps.mode = .supervisor := by
  unfold HandlerFrame at h
  rw [h]

theorem doubleFault_step (s : State) : HandlerStep s s.doubleFault := by
  have hdraw : UserStep s s.drawWord.2 := rfl
  rw [State.doubleFault]
  dsimp only
  cases henter : s.drawWord.2.enter .double 0#16 (some s.drawWord.1) with
  | done _ t => exact (enter_done_step (by decide) (by decide) henter).after hdraw
  | abort e t =>
    have hframe : HandlerFrame s.drawWord.2 t := enter_abort_frame (by decide) henter
    have hseven : t.ps.level.toNat = 7 := by rw [level_of_enter_abort henter]; rfl
    exact ((tripleFault_step hframe.mode hseven).within hframe).after hdraw

/-- A fault below level 7 enters a handler (R492). -/
theorem raiseFault_step {s : State} (e : FaultCause) (h : s.ps.level.toNat ≤ 6) : HandlerStep s (s.raiseFault e) := by
  rcases Nat.lt_or_eq_of_le h with hlow | hsix
  · have haddress : UserStep s (s.faultAddress e).2 := by rw [faultAddress_state]; rfl
    have hevent : e.interrupt ≠ .timer ∧ e.interrupt ≠ .hwi := by cases e <;> exact ⟨nofun, nofun⟩
    rw [raiseFault_of_level_low e (Nat.le_of_lt_succ hlow)]
    cases henter : (s.faultAddress e).2.enter e.interrupt (e.cause s.inUser) (some (s.faultAddress e).1) with
    | done _ t => exact (enter_done_step hevent.1 hevent.2 henter).after haddress
    | abort x t =>
      have hsix : t.ps.level.toNat = 6 := by rw [level_of_enter_abort henter, newLevel_fault]; rfl
      dsimp only
      rw [raiseFault_of_level_six x hsix]
      exact ((doubleFault_step t).within (enter_abort_frame hevent.1 henter)).after haddress
  · rw [raiseFault_of_level_six e hsix]
    exact doubleFault_step s

/-- A fault raised by a handler at level 3 or above, as one inside an entry is. -/
theorem raiseFault_step_of_supervisor {s : State} (e : FaultCause) (hmode : s.ps.mode = .supervisor) :
    HandlerStep s (s.raiseFault e) := by
  rcases Nat.lt_or_ge s.ps.level.toNat 7 with hlow | hseven
  · exact raiseFault_step e (Nat.le_of_lt_succ hlow)
  · have hlevel : s.ps.level.toNat = 7 := by omega
    rw [raiseFault_of_level_seven e hlevel]
    exact tripleFault_step hmode hlevel

theorem takeInterrupt_step (s : State) {i : Interrupt} (cause : Word) (htimer : i ≠ .timer) (hhwi : i ≠ .hwi) :
    HandlerStep s (s.takeInterrupt i cause) := by
  rw [State.takeInterrupt]
  cases henter : s.enter i cause none with
  | done _ t => exact enter_done_step htimer hhwi henter
  | abort e t =>
    have hframe : HandlerFrame s t := enter_abort_frame htimer henter
    exact (raiseFault_step_of_supervisor e hframe.mode).within hframe

/-! ## Outcomes -/

/-- A next state, if there is one, is what user mode may end in. -/
def Isolated (s : State) (o : Host.Outcome State Fault Refusal) : Prop :=
  ∀ t, o = .next t → UserStep s t ∨ HandlerStep s t

theorem isolated_of_userStep {s t : State} (h : UserStep s t) : Isolated s (.next t) := by
  rintro u ⟨⟩
  exact .inl h

theorem isolated_of_handlerStep {s t : State} (h : HandlerStep s t) : Isolated s (.next t) := by
  rintro u ⟨⟩
  exact .inr h

theorem Isolated.after {s t : State} {o : Host.Outcome State Fault Refusal} (h : UserStep s t) (k : Isolated t o) :
    Isolated s o := fun u hu => (k u hu).imp h.trans fun hstep => hstep.after h

/-- A fault of an instruction: at level 7 Reset becomes pending and nothing else changes (R492). -/
theorem raiseFault_isolated (s : State) (e : FaultCause) : Isolated s (.next (s.raiseFault e)) := by
  rcases Nat.lt_or_ge s.ps.level.toNat 7 with hlow | hseven
  · exact isolated_of_handlerStep (raiseFault_step e (Nat.le_of_lt_succ hlow))
  · rw [raiseFault_of_level_seven e (by omega)]
    exact isolated_of_userStep rfl

/-- An instruction made of accesses, which user code may make. -/
theorem settle_isolated {s : State} {x : Access Unit} (h : UserStep s (final x)) : Isolated s (.next x.settle) := by
  cases x with
  | done _ t => exact isolated_of_userStep h
  | abort e t => exact (raiseFault_isolated t e).after h

theorem bind_userStep {α β : Type} {s : State} {x : Access α} {f : α → State → Access β} (hx : MemoryStep s (final x))
    (hf : ∀ a t, t.ps.mode = s.ps.mode → UserStep t (final (f a t))) : UserStep s (final (x.bind f)) := by
  have hstep := userStep_of_memory hx
  cases x with
  | done a t => exact hstep.trans (hf a t hstep.mode)
  | abort e t => exact hstep

/-- A privileged instruction (R541). -/
theorem ifSupervisor_isolated {s : State} (x : Access Unit) (h : s.ps.mode = .user) :
    Isolated s (.next (s.ifSupervisor x).settle) := by
  rw [ifSupervisor_of_user x h]
  exact raiseFault_isolated s .unpriv

theorem setRegs_userStep (rs : List Reg) (vs : List Word) (s : State) : UserStep s (s.setRegs rs vs) := by
  unfold UserStep
  rw [setRegs_eq]

theorem branchIf_userStep {n : Nat} (s : State) (c : Bool) (i : BitVec n) : UserStep s (s.branchIf c i) := by
  unfold State.branchIf
  split <;> rfl

theorem stash_isolated {s : State} (values : List Word) (h : s.ps.mode = .user) :
    Isolated s (.next (s.stash values).settle) :=
  settle_isolated (bind_userStep (pushWords_memory _ values s s.sp) fun sp _ hmode => setSp_userStep sp (hmode.trans h))

theorem restore_isolated {s : State} (rs : List Reg) (h : s.ps.mode = .user) :
    Isolated s (.next (s.restore rs).settle) := by
  refine settle_isolated (bind_userStep (popWords_memory _ rs.length s s.sp) fun values t hmode => ?_)
  have hregs := setRegs_userStep rs values t
  exact hregs.trans (setSp_userStep _ (hregs.mode.trans (hmode.trans h)))

/-! ## Instructions with a refusal or a fault of their own -/

theorem execDiv_isolated (p : Pair) (m n : Reg) (s : State) : Isolated s (execDiv p m n s) := by
  unfold execDiv
  split
  · exact raiseFault_isolated s _
  · exact isolated_of_userStep rfl

theorem execDvi_isolated (p : Pair) (m n : Reg) (s : State) : Isolated s (execDvi p m n s) := by
  unfold execDvi
  split
  · exact raiseFault_isolated s _
  · split <;> exact isolated_of_userStep rfl

theorem execMrs_isolated (d : Reg) (idx : BitVec 5) (s : State) : Isolated s (execMrs d idx s) := by
  unfold execMrs
  split
  · exact raiseFault_isolated s _
  · split <;> exact isolated_of_userStep rfl

/-- In user mode the special registers that MSR may name are PC, PS and SU (R56). -/
theorem checkSpecial_of_user {s : State} {idx : BitVec 5} {d : Reg} {r : Special} (hmode : s.ps.mode = .user)
    (h : s.checkSpecial idx d = .ok r) : r.privileged = false := by
  unfold State.checkSpecial at h
  split at h
  next => cases h
  next =>
    split at h
    next => cases h
    next hallowed =>
      split at h
      next => cases h
      next =>
        cases h
        simpa [State.inUser, hmode] using hallowed

theorem execMsr_isolated {s : State} (d : Reg) (idx : BitVec 5) (hmode : s.ps.mode = .user) :
    Isolated s (execMsr d idx s) := by
  unfold execMsr
  split
  next => exact raiseFault_isolated s _
  next r hcheck =>
    have hunprivileged := checkSpecial_of_user hmode hcheck
    cases r with
    | pc | su => exact isolated_of_userStep rfl
    | ps =>
      simp only [State.writeSpecial, Status.write?, hmode]
      exact isolated_of_userStep rfl
    | ss | vb | im | ic | fa | tu | ts | cl | cc | pf => cases hunprivileged

theorem commitSpecial_isolated {s : State} (mask : BitVec 4) (sp : Word) (words : List Word) (hmode : s.ps.mode = .user) :
    Isolated s (s.commitSpecial mask sp words) := by
  unfold State.commitSpecial
  dsimp only
  refine Isolated.after (setSp_userStep ((takeIf (mask.getLsbD 3) words).1.getD sp) hmode) ?_
  split
  · exact isolated_of_userStep rfl
  · simp only [Status.write?, hmode]
    rw [← setSp_ps s ((takeIf (mask.getLsbD 3) words).1.getD sp)]
    exact isolated_of_userStep rfl

theorem execStrSpecial_isolated {s : State} (mask : BitVec 4) (hmode : s.ps.mode = .user) :
    Isolated s (execStrSpecial mask s) := by
  unfold execStrSpecial
  dsimp only
  generalize (selectDescending mask () () () ()).length = count
  have hpops := userStep_of_memory (popWords_memory s.ps.mode count s s.sp)
  cases hwords : s.popWords s.ps.mode s.sp count with
  | abort e t =>
    rw [hwords] at hpops
    exact (raiseFault_isolated t e).after hpops
  | done words t =>
    rw [hwords] at hpops
    exact (commitSpecial_isolated mask _ words (hpops.mode.trans hmode)).after hpops

/-! ## Every instruction -/

theorem exec_isolated (i : Instr) {s : State} (h : s.ps.mode = .user) : Isolated s (exec i s) := by
  have huser : s.inUser = true := by simp [State.inUser, h]
  cases i with
  | add | adc | sub | sbc | mul | mli | addImm | adcImm | subImm | sbcImm | btt | btx | btc | bts | mviL | mviH | mov
  | rexSb | rexUb | revB | revT | notReg | andReg | orrReg | eorReg | neg | cmpReg | cmpImm | lslReg | lslImm | lsrReg
  | lsrImm | asrReg | asrImm | rnlReg | rnlImm | rnrReg | rnrImm | rolReg | rolImm | rorReg | rorImm | nop | sfv | cfv
  | sfc | cfc | sfz | cfz | sfn | cfn | jmp => exact isolated_of_userStep rfl
  | bvs | bvc | bcs | bcc | beq | bne | bmi | bpl | bra => exact isolated_of_userStep (branchIf_userStep s _ _)
  | div p m n => exact execDiv_isolated p m n s
  | dvi p m n => exact execDvi_isolated p m n s
  | bttM => exact settle_isolated (bind_userStep (readWordAs_memory s _ _ _) fun _ _ _ => rfl)
  | btxM | btcM | btsM => exact settle_isolated (bind_userStep (modifyWord_memory s _ _) fun _ _ _ => rfl)
  | lodReg | lodImm | lodPc | lodSp =>
    exact settle_isolated (bind_userStep (readWordAs_memory s _ _ _) fun _ _ _ => rfl)
  | lodBReg | lodBImm => exact settle_isolated (bind_userStep (readByteAs_memory s _ _) fun _ _ _ => rfl)
  | stoReg | stoImm | stoPc | stoSp => exact settle_isolated (userStep_of_memory (writeWordAs_memory s _ _ _))
  | stoBReg | stoBImm => exact settle_isolated (userStep_of_memory (writeByteAs_memory s _ _ _))
  | stsLow | stsHigh | stsSpecial => exact stash_isolated _ h
  | strLow | strHigh => exact restore_isolated _ h
  | strSpecial mask => exact execStrSpecial_isolated mask h
  | stx => exact isolated_of_userStep (setSp_userStep _ h)
  | rts =>
    exact settle_isolated (bind_userStep (readWordAs_memory s _ _ _) fun _ t hmode =>
      (setSp_userStep _ (hmode.trans h)).trans rfl)
  | jsr =>
    exact settle_isolated (bind_userStep (pushWords_memory _ _ s _) fun sp t hmode =>
      (setSp_userStep sp (hmode.trans h)).trans rfl)
  | brk | swi => exact isolated_of_handlerStep (takeInterrupt_step s _ (by decide) (by decide))
  | mrs d idx => exact execMrs_isolated d idx s
  | msr d idx => exact execMsr_isolated d idx h
  | lou | louB | sou | souB | ptlV | ptlI | ptsV | ptsI | slp => exact ifSupervisor_isolated _ h
  | rti | hwq =>
    simp only [exec, execRti, execHwq, huser, if_true]
    exact raiseFault_isolated s _

/-- Settles O60: the frames of the two ways in which an instruction of user mode can end. -/
theorem userIsolation : Obligations.UserIsolation := by
  intro i s t hmode hexec
  rcases exec_isolated i hmode t hexec with huser | ⟨hframe, hlevel, hended⟩
  · have hstays : t.ps.mode = .user := huser.mode.trans hmode
    unfold UserStep at huser
    refine ⟨by rw [huser], by rw [huser], by rw [huser], by rw [huser], by rw [huser], by rw [huser], by rw [huser],
      by rw [huser], by rw [huser], by rw [huser], fun _ => ?_, fun hsupervisor => ?_⟩
    · exact ⟨by rw [huser], by rw [huser], by rw [huser], by rw [huser], by rw [huser]⟩
    · rw [hstays] at hsupervisor
      cases hsupervisor
  · have hsupervisor : t.ps.mode = .supervisor := hframe.mode
    unfold HandlerFrame at hframe
    refine ⟨by rw [hframe], by rw [hframe], by rw [hframe], by rw [hframe], by rw [hframe], by rw [hframe],
      by rw [hframe], by rw [hframe], by rw [hframe], by rw [hframe], fun huser => ?_, fun _ => ⟨hlevel, hended⟩⟩
    rw [hsupervisor] at huser
    cases huser

end Sys2Proof.Proofs
end

section
/-! PROOFS. The boundary: which of its events comes first, what the environment does before it, the device presented as HWI,
and a Reset step. -/

namespace Sys2Proof.Proofs

open Sys2Proof.Machine Sys2Proof.Laws

/-! ## The order at a boundary -/

theorem timerReady_iff (s : State) :
    s.timerReady = true ↔ s.ps.ie = true ∧ s.im.clock = true ∧ s.cc.toNat ≤ s.cl.toNat ∧ s.ps.level.toNat < 2 := by
  simp only [State.timerReady, Bool.and_eq_true, decide_eq_true_eq, and_assoc]

theorem hwiAllowed_iff (s : State) :
    s.hwiAllowed = true ↔ s.ps.ie = true ∧ s.im.hardware = true ∧ s.ps.level.toNat = 0 := by
  simp only [State.hwiAllowed, Bool.and_eq_true, decide_eq_true_eq, and_assoc, Nat.lt_one_iff]

section Boundary

variable {s : State}

theorem boundary_of_reset (h : s.resetPending = true ∨ s.resetLine = true) : s.boundary = .reset := by
  simp [State.boundary, h]

theorem boundary_of_latch (hreset : ¬(s.resetPending = true ∨ s.resetLine = true)) (h : s.debugLatch = true) :
    s.boundary = .debugQuery := by
  simp [State.boundary, hreset, h]

theorem boundary_of_timer (hreset : ¬(s.resetPending = true ∨ s.resetLine = true)) (hlatch : s.debugLatch = false)
    (h : s.timerReady = true) : s.boundary = .timer := by
  simp [State.boundary, hreset, hlatch, h]

/-- With neither Reset nor DebugQuery nor Timer: HWI, sleep or an instruction. -/
theorem boundary_of_none (hreset : ¬(s.resetPending = true ∨ s.resetLine = true)) (hlatch : s.debugLatch = false)
    (htimer : s.timerReady = false) :
    s.boundary =
      match if s.hwiAllowed then s.hwiCandidate else none with
      | some k => .hwi k
      | none => if s.asleep then .sleep else .run := by
  cases hhwi : s.hwiAllowed with
  | false => simp [State.boundary, hreset, hlatch, htimer, hhwi]
  | true => cases hcandidate : s.hwiCandidate <;> simp [State.boundary, hreset, hlatch, htimer, hhwi, hcandidate]

end Boundary

/-! ## The environment -/

theorem applyEvent_with_inputs (s : State) (e : Event) (inputs : List (List Event)) :
    { s with inputs := inputs }.applyEvent e = { s.applyEvent e with inputs := inputs } := by
  cases e <;> rfl

theorem takeInputs_nil {s : State} (h : s.inputs = []) : s.takeInputs = s := by
  simp only [State.takeInputs, h]

theorem takeInputs_cons {s : State} {events : List Event} {rest : List (List Event)} (h : s.inputs = events :: rest) :
    s.takeInputs = events.foldl State.applyEvent { s with inputs := rest } := by
  simp only [State.takeInputs, h]

/-- Settles O51: the boundary by its first ready event, then each event's effect. -/
theorem boundaryOrder : Obligations.BoundaryOrder := by
  intro s timer hwi reset
  have htimer : s.timerReady = true ↔ timer := timerReady_iff s
  have hhwi : s.hwiAllowed = true ↔ hwi := hwiAllowed_iff s
  have horder :
      (s.boundary = .reset ↔ reset) ∧
      (s.boundary = .debugQuery ↔ ¬reset ∧ s.debugLatch = true) ∧
      (s.boundary = .timer ↔ ¬reset ∧ s.debugLatch = false ∧ timer) ∧
      (∀ k, s.boundary = .hwi k ↔ ¬reset ∧ s.debugLatch = false ∧ ¬timer ∧ hwi ∧ s.hwiCandidate = some k) ∧
      (s.boundary = .sleep ↔
        ¬reset ∧ s.debugLatch = false ∧ ¬timer ∧ ¬(hwi ∧ s.hwiCandidate ≠ none) ∧ s.asleep = true) ∧
      (s.boundary = .run ↔
        ¬reset ∧ s.debugLatch = false ∧ ¬timer ∧ ¬(hwi ∧ s.hwiCandidate ≠ none) ∧ s.asleep = false) := by
    rw [← htimer, ← hhwi]
    by_cases hreset : reset
    · simp [boundary_of_reset hreset, hreset]
    cases hlatch : s.debugLatch with
    | true => simp [boundary_of_latch hreset hlatch, hreset]
    | false =>
      cases hready : s.timerReady with
      | true => simp [boundary_of_timer hreset hlatch hready, hreset]
      | false =>
        rw [boundary_of_none hreset hlatch hready]
        cases s.hwiAllowed <;> cases s.hwiCandidate <;> cases s.asleep <;> simp [hreset]
  obtain ⟨hboundaryReset, hboundaryDebug, hboundaryTimer, hboundaryHwi, hboundarySleep, hboundaryRun⟩ := horder
  refine ⟨hboundaryReset, hboundaryDebug, hboundaryTimer, hboundaryHwi, hboundarySleep, hboundaryRun,
    fun high => ⟨?_, rfl⟩, fun high => ⟨?_, rfl⟩, fun slot asserted => ⟨fun hwf k => ?_, rfl⟩, fun _ => rfl,
    fun _ => rfl, fun _ => rfl, takeInputs_nil, fun rest h => takeInputs_cons h, fun e events rest h => ?_⟩
  · simp [State.applyEvent, and_comm]
  · simp [State.applyEvent]
  · exact sparseGet_set false s.sbc.irq slot k asserted hwf
  · rw [takeInputs_cons h, List.foldl_cons, applyEvent_with_inputs, takeInputs_cons rfl]

/-! ## The device presented as HWI -/

/-- Slot `k` is presented before slot `j`, or is slot `j`: greater PRI, or equal PRI and a lower number (R502). -/
def Precedes (c : Sbc) (k j : Nat) : Prop :=
  (configPriority (c.config j)).toNat < (configPriority (c.config k)).toNat ∨
    ((configPriority (c.config j)).toNat = (configPriority (c.config k)).toNat ∧ k ≤ j)

/-- The best of a set of slots; none for the empty set. -/
def IsBest (c : Sbc) (slots : Nat → Prop) : Option Nat → Prop
  | none => ∀ j, ¬slots j
  | some k => slots k ∧ ∀ j, slots j → Precedes c k j

/-- A slot that the list of request lines asserts, present and enabled (R502). -/
def Candidate (p : Platform) (c : Sbc) (l : List (Nat × Bool)) (k : Nat) : Prop :=
  (k, true) ∈ l ∧ p.present k = true ∧ configEnabled (c.config k) = true

theorem isBest_congr {c : Sbc} {slots others : Nat → Prop} {best : Option Nat} (h : ∀ j, slots j ↔ others j)
    (hbest : IsBest c slots best) : IsBest c others best := by
  have heq : slots = others := funext fun j => propext (h j)
  exact heq ▸ hbest

/-- One more slot in the search: it replaces the best so far only where its PRI is greater. -/
def insertBest (c : Sbc) (k : Nat) : Option Nat → Option Nat
  | none => some k
  | some b =>
    if (configPriority (c.config b)).toNat < (configPriority (c.config k)).toNat then some k else some b

theorem bestCandidate_cons (p : Platform) (c : Sbc) (best : Option Nat) (k : Nat) (rest : List (Nat × Bool)) :
    bestCandidate p c best ((k, true) :: rest) =
      bestCandidate p c (if p.present k = true ∧ configEnabled (c.config k) = true then insertBest c k best else best)
        rest := by
  cases best <;> by_cases hpresent : p.present k = true <;> by_cases henabled : configEnabled (c.config k) = true <;>
    simp [bestCandidate, insertBest, hpresent, henabled]

theorem isBest_insertBest {c : Sbc} {slots : Nat → Prop} {best : Option Nat} {k : Nat} (hbest : IsBest c slots best)
    (hbelow : ∀ j, slots j → j < k) : IsBest c (fun j => slots j ∨ j = k) (insertBest c k best) := by
  cases best with
  | none =>
    refine ⟨.inr rfl, fun j hj => ?_⟩
    rcases hj with hj | rfl
    · exact absurd hj (hbest j)
    · exact .inr ⟨rfl, le_rfl⟩
  | some b =>
    obtain ⟨hb, hfirst⟩ := hbest
    by_cases hlt : (configPriority (c.config b)).toNat < (configPriority (c.config k)).toNat
    · simp only [insertBest, hlt, if_true]
      refine ⟨.inr rfl, fun j hj => ?_⟩
      rcases hj with hj | rfl
      · rcases hfirst j hj with h | ⟨h, -⟩
        · exact .inl (h.trans hlt)
        · exact .inl (h ▸ hlt)
      · exact .inr ⟨rfl, le_rfl⟩
    · simp only [insertBest, hlt, if_false]
      refine ⟨.inl hb, fun j hj => ?_⟩
      rcases hj with hj | rfl
      · exact hfirst j hj
      · rcases Nat.lt_or_eq_of_le (Nat.le_of_not_lt hlt) with h | h
        · exact .inl h
        · exact .inr ⟨h, Nat.le_of_lt (hbelow b hb)⟩

theorem candidate_cons (p : Platform) (c : Sbc) (k : Nat) (l : List (Nat × Bool)) (j : Nat) :
    Candidate p c ((k, true) :: l) j ↔
      (j = k ∧ p.present k = true ∧ configEnabled (c.config k) = true) ∨ Candidate p c l j := by
  unfold Candidate
  rw [List.mem_cons, Prod.mk.injEq, or_and_right]
  constructor
  · rintro (⟨⟨rfl, -⟩, h⟩ | h)
    · exact .inl ⟨rfl, h⟩
    · exact .inr h
  · rintro (⟨rfl, h⟩ | h)
    · exact .inl ⟨⟨rfl, rfl⟩, h⟩
    · exact .inr h

/-- The search through the request lines, in rising order, ends with the best of all candidates. -/
theorem bestCandidate_isBest (p : Platform) (c : Sbc) :
    ∀ (l : List (Nat × Bool)) (low : Nat) (slots : Nat → Prop) (best : Option Nat),
      sparseWfFrom false low l = true → (∀ j, slots j → j < low) → IsBest c slots best →
      IsBest c (fun j => slots j ∨ Candidate p c l j) (bestCandidate p c best l)
  | [], _, _, _, _, _, hbest => isBest_congr (fun j => by simp [Candidate]) hbest
  | (k, asserted) :: rest, low, slots, best, hwf, hbelow, hbest => by
    simp only [sparseWfFrom, Bool.and_eq_true, decide_eq_true_eq, ne_eq, Bool.not_eq_false] at hwf
    obtain ⟨⟨hlow, rfl⟩, hrest⟩ := hwf
    have hbelow' : ∀ j, slots j → j < k := fun j hj => Nat.lt_of_lt_of_le (hbelow j hj) hlow
    rw [bestCandidate_cons]
    by_cases heligible : p.present k = true ∧ configEnabled (c.config k) = true
    · have hstep := isBest_insertBest hbest hbelow'
      have hseen : ∀ j, slots j ∨ j = k → j < k + 1 := by
        rintro j (hj | rfl)
        · exact Nat.lt_succ_of_lt (hbelow' j hj)
        · exact Nat.lt_succ_self j
      have hall := bestCandidate_isBest p c rest (k + 1) _ _ hrest hseen hstep
      rw [if_pos heligible]
      refine isBest_congr (fun j => ?_) hall
      simp only [candidate_cons, heligible.1, heligible.2, and_true, or_assoc]
    · have hall := bestCandidate_isBest p c rest (k + 1) slots best hrest
        (fun j hj => Nat.lt_succ_of_lt (hbelow' j hj)) hbest
      rw [if_neg heligible]
      refine isBest_congr (fun j => ?_) hall
      rw [candidate_cons]
      simp only [heligible, and_false, false_or]

theorem hwiCandidate_isBest {s : State} (hwf : sparseWf false s.sbc.irq = true) :
    IsBest s.sbc (fun k => s.platform.present k = true ∧ s.sbc.request k = true ∧ configEnabled (s.sbc.config k) = true)
      s.hwiCandidate := by
  have hbest := bestCandidate_isBest s.platform s.sbc s.sbc.irq 0 (fun _ => False) none hwf nofun fun _ h => h
  refine isBest_congr (fun k => ?_) hbest
  have hrequest : s.sbc.request k = true ↔ (k, true) ∈ s.sbc.irq := by
    constructor
    · intro h
      have hne : sparseGet false s.sbc.irq k ≠ false := by
        change s.sbc.request k ≠ false
        rw [h]; nofun
      have hmem := mem_of_sparseGet_ne hne
      rwa [show sparseGet false s.sbc.irq k = true from h] at hmem
    · exact fun h => (sparseGet_of_mem hwf h).2
  rw [false_or, Candidate, hrequest]
  tauto

/-- PRI by its number (R527). -/
theorem configPriority_toNat (v : BitVec 4) : (configPriority v).toNat = v.toNat / 2 := by
  rw [configPriority, toNat_extract]
  omega

/-- Settles O44: the device presented is the best of those eligible. -/
theorem hwiSelection : Obligations.HwiSelection := by
  intro s hwf eligible pri
  have hbest := hwiCandidate_isBest hwf
  refine ⟨fun hnone => ?_, fun k hsome => ?_⟩
  · rw [hnone] at hbest
    exact hbest
  · rw [hsome] at hbest
    obtain ⟨hk, hfirst⟩ := hbest
    refine ⟨hk, fun j hj => ?_⟩
    have hprecedes := hfirst j hj
    rwa [Precedes, configPriority_toNat, configPriority_toNat] at hprecedes

/-! ## Reset -/

/-- Of the state, the windows of a Reset are the SBC's only (R561). -/
theorem placeWindows_eq : ∀ (list : List (Nat × Window)) (s : State),
    placeWindows s list = { s with sbc := { s.sbc with windows := (placeWindows s list).sbc.windows } }
  | [], _ => rfl
  | (k, w) :: rest, s => by
    unfold placeWindows
    split
    · rw [placeWindows_eq rest]
    · exact placeWindows_eq rest s

/-- What Reset retains of the SBC and of the lines (R561). -/
theorem forget_retains (s : State) :
    s.forget.sbc.nvram = s.sbc.nvram ∧ s.forget.sbc.rtc = s.sbc.rtc ∧ s.forget.sbc.irq = s.sbc.irq := by
  unfold State.forget
  dsimp only
  rw [placeWindows_eq]
  exact ⟨rfl, rfl, rfl⟩

theorem applyEvents_nvram : ∀ (events : List Event) (s : State),
    (events.foldl State.applyEvent s).sbc.nvram = s.sbc.nvram
  | [], _ => rfl
  | e :: events, s => (applyEvents_nvram events (s.applyEvent e)).trans (by cases e <;> rfl)

/-- No event of the environment writes a byte of the NVRAM (R531). -/
theorem takeInputs_nvram (s : State) : s.takeInputs.sbc.nvram = s.sbc.nvram := by
  cases h : s.inputs with
  | nil => rw [takeInputs_nil h]
  | cons events rest => rw [takeInputs_cons h, applyEvents_nvram]

theorem step_of_reset {s : State} (h : s.takeInputs.boundary = .reset) : step s = .next s.takeInputs.resetSequence := by
  simp only [step, State.cycle, h]

/-- PS after a Reset (R560). -/
def resetStatus : Status :=
  { mode := .supervisor, mmu := false, ie := false, level := 0#3, n := false, z := false, c := false, v := false }

/-- The state in which Reset reads its vector, from what it leaves free; `line` is the RESET line (R560, D28). -/
def resetRegisters (s : State) (line : Bool) : State :=
  { s with
    resetPending := line
    asleep := false
    debugLatch := false
    ps := resetStatus
    vb := 0xFFE0#16
    ic := 0#16 }

theorem resetSequence_eq (s : State) :
    ∃ n, s.resetSequence =
      { resetRegisters s.forget s.resetLine with
        pc := ((resetRegisters s.forget s.resetLine).physRead2 0x0000FFE0#32).1
        draws := n } := by
  obtain ⟨n, hread⟩ := physRead2_state (resetRegisters s.forget s.resetLine) 0x0000FFE0#32
  have hsequence : s.resetSequence =
      { ((resetRegisters s.forget s.resetLine).physRead2 0x0000FFE0#32).2 with
        pc := ((resetRegisters s.forget s.resetLine).physRead2 0x0000FFE0#32).1 } := by
    unfold State.resetSequence
    generalize s.forget = r
    rfl
  exact ⟨n, by rw [hsequence, hread]⟩

/-- Settles O53: the registers Reset sets, its vector's read, and what R561 retains. -/
theorem resetStep : Obligations.ResetStep := by
  intro s hboundary
  have hstep := step_of_reset hboundary
  obtain ⟨n, hsequence⟩ := resetSequence_eq s.takeInputs
  obtain ⟨hnvram, hrtc, hirq⟩ := forget_retains s.takeInputs
  obtain ⟨hrom, hplatform⟩ := romFixed s _ hstep
  have hps : resetStatus.toWord = 0x4000#16 := by decide
  refine ⟨_, hstep, ?_, ?_, ?_, ?_, ?_, ?_, fun hown => ?_, hrom, hplatform, ?_, ?_, ?_⟩
  · rw [hsequence]; exact hps
  · rw [hsequence]; rfl
  · rw [hsequence]; rfl
  · rw [hsequence]; rfl
  · rw [hsequence]; rfl
  · rw [hsequence]; rfl
  · rw [hsequence] at hown ⊢
    have hread := physRead2_own (resetRegisters s.takeInputs.forget s.takeInputs.resetLine) 0x0000FFE0#32 hown
    rw [hread]
    exact (wordAt_of_bytes (byteAt_congr rfl rfl rfl rfl) _).symm
  · rw [hsequence]; exact hnvram.trans (takeInputs_nvram s)
  · rw [hsequence]; exact hrtc
  · rw [hsequence]; exact hirq

/-- Settles O58: nothing is listed in the state after reset, and its platform has at most 65535 slots. -/
theorem resetInv : Obligations.ResetInv := by
  have hslots : State.reset.platform.slotCount ≤ 65535 := by
    have htake : (Config.slots.take 65534).length ≤ 65534 := List.length_take_le _ _
    change 1 + (Config.slots.take 65534).length ≤ 65535
    omega
  exact (inv_iff _).2 ⟨rfl, rfl, rfl, ⟨rfl, rfl, rfl, rfl, rfl, rfl, rfl⟩, hslots⟩

end Sys2Proof.Proofs
end

section
/-! PROOFS. HWQ: where its checks answer, and each of the twelve operations of the System Bus Controller by the numbers of the
statements. -/

namespace Sys2Proof.Proofs

open Sys2Proof.Machine Sys2Proof.Laws

/-! ## The operations -/

theorem inUser_of_user {s : State} (h : s.ps.mode = .user) : s.inUser = true := by simp [State.inUser, h]

theorem inUser_of_supervisor {s : State} (h : s.ps.mode = .supervisor) : s.inUser = false := by simp [State.inUser, h]

/-- What HWQ does in supervisor mode, by its index (R408). -/
structure HwqOperations (s : State) : Prop where
  slots : exec (.hwq 0x00) s = .next s.hwqSlots
  memory : exec (.hwq 0x01) s = .next s.hwqMemory
  describe : exec (.hwq 0x02) s = .next s.hwqDescribe
  message : exec (.hwq 0x03) s = .next s.hwqMessage
  readWindow : exec (.hwq 0x10) s = .next s.hwqReadWindow
  writeWindow : exec (.hwq 0x11) s = s.hwqWriteWindow
  readConfig : exec (.hwq 0x12) s = .next s.hwqReadConfig
  writeConfig : exec (.hwq 0x13) s = .next s.hwqWriteConfig
  clock : exec (.hwq 0x20) s = .next s.hwqClock
  nvramSize : exec (.hwq 0x21) s = .next s.hwqNvramSize
  nvramWrite : exec (.hwq 0x22) s = .next s.hwqNvramWrite
  nvramRead : exec (.hwq 0x23) s = .next s.hwqNvramRead

theorem hwqOperations {s : State} (h : s.ps.mode = .supervisor) : HwqOperations s := by
  have hmode := inUser_of_supervisor h
  constructor <;> simp [exec, execHwq, hmode]

/-- In supervisor mode every other index is undefined (R535). -/
theorem exec_hwq_undefined {s : State} {op : BitVec 6} (hmode : s.ps.mode = .supervisor)
    (h : (0x04 ≤ op.toNat ∧ op.toNat ≤ 0x0F) ∨ (0x14 ≤ op.toNat ∧ op.toNat ≤ 0x1F) ∨ 0x24 ≤ op.toNat) :
    exec (.hwq op) s = .next (s.raiseFault .undef) := by
  simp only [exec, execHwq, inUser_of_supervisor hmode, Bool.false_eq_true, if_false]
  split
  case h_13 => rfl
  all_goals omega

/-- Settles O37: the privilege check is the first of every privileged instruction; HWQ's index is looked at after it. -/
theorem privilegeTraps : Obligations.PrivilegeTraps := by
  intro s p d m op
  refine ⟨decode_encode (.hwq op), fun hmode => ?_, fun hmode h => exec_hwq_undefined hmode h⟩
  have huser := inUser_of_user hmode
  have hhwq : exec (.hwq op) s = .next (s.raiseFault .unpriv) := by simp only [exec, execHwq, huser, if_true]
  have hrti : exec .rti s = .next (s.raiseFault .unpriv) := by simp only [exec, execRti, huser, if_true]
  simp only [List.forall_mem_cons, List.not_mem_nil, false_implies, implies_true, and_true]
  exact ⟨hhwq, exec_of_user rfl hmode, exec_of_user rfl hmode, exec_of_user rfl hmode, exec_of_user rfl hmode, hrti,
    exec_of_user rfl hmode, exec_of_user rfl hmode, exec_of_user rfl hmode, exec_of_user rfl hmode,
    exec_of_user rfl hmode⟩

/-- Settles O38: NO_MEMORY and ERR_NO_DEVICE stand where the platform gives nothing. -/
theorem hwqIdentify : Obligations.HwqIdentify := by
  intro s hmode size
  have hops := hwqOperations hmode
  have hsize : ∀ x, sizeOrNone x = size x := by rintro (_ | v) <;> rfl
  refine ⟨hops.slots, ?_, fun info hinfo => ?_, fun hnone => ?_⟩
  · rw [hops.memory, State.hwqMemory, hsize, hsize]; rfl
  · rw [hops.describe, State.hwqDescribe, State.slot, hinfo]
  · rw [hops.describe, State.hwqDescribe, State.slot, hnone]
    exact ⟨_, _, _, rfl⟩

/-- Settles O39: a present device answers one of the three codes. -/
theorem hwqMessage : Obligations.HwqMessage := by
  intro s hmode
  have hops := hwqOperations hmode
  refine ⟨fun habsent => ?_, fun hpresent => ⟨answerCode (Config.deviceAnswer s.draws), ?_, ?_⟩⟩
  · rw [hops.message, State.hwqMessage, State.slot, habsent]; rfl
  · cases Config.deviceAnswer s.draws with
    | ack => exact .inl rfl
    | wait => exact .inr (.inl rfl)
    | error => exact .inr (.inr rfl)
  · rw [hops.message, State.hwqMessage, State.slot, hpresent]; rfl

/-! ## Windows -/

/-- Two ranges have a byte in common. -/
theorem rangesMeet_iff (a la b lb : Nat) :
    rangesMeet a la b lb = true ↔ ∃ x, (a ≤ x ∧ x < a + la) ∧ b ≤ x ∧ x < b + lb := by
  simp only [rangesMeet, Bool.and_eq_true, decide_eq_true_eq]
  constructor
  · intro h
    exact ⟨max a b, by omega, by omega⟩
  · rintro ⟨x, ha, hb⟩
    omega

theorem any_meetsHigh_iff (l : List Region) (a la : Nat) :
    l.any (Region.meetsHigh · a la) = true ↔
      ∃ x, (a ≤ x ∧ x < a + la) ∧ 0x10000 ≤ x ∧ ∃ r ∈ l, r.base ≤ x ∧ x < r.base + r.size := by
  simp only [List.any_eq_true, Region.meetsHigh, rangesMeet_iff]
  constructor
  · rintro ⟨r, hr, x, ha, hb⟩
    exact ⟨x, ha, by omega, r, hr, by omega⟩
  · rintro ⟨x, ha, hlow, r, hr, hb⟩
    exact ⟨r, hr, x, ha, by omega⟩

/-- A range meets memory where one of its bytes is RAM or ROM (R526). -/
theorem meetsMemory_iff (p : Platform) (a la : Nat) :
    p.meetsMemory a la = true ↔ ∃ x, (a ≤ x ∧ x < a + la) ∧ (p.isRam x = true ∨ p.isRom x = true) := by
  have hrom : p.lowRomStart ≤ 0x10000 ∧ 0xC000 ≤ p.lowRomStart := by unfold Platform.lowRomStart; omega
  have hram : p.lowRamEnd ≤ 0x8000 := Nat.min_le_right _ _
  have hmemory : ∀ x, p.isRam x = true ∨ p.isRom x = true ↔
      (x < p.lowRamEnd ∨ p.lowRomStart ≤ x ∧ x < 0x10000) ∨
        0x10000 ≤ x ∧ ((∃ r ∈ p.highRam, r.base ≤ x ∧ x < r.base + r.size) ∨
          ∃ r ∈ p.highRom, r.base ≤ x ∧ x < r.base + r.size) := by
    intro x
    rw [isRom_iff, isRam_iff]
    by_cases hlow : x < 0x10000
    · have hstart := lowRomStart_le_iff p hlow
      have hend : x < p.lowRamEnd ↔ x < 0x8000 ∧ x < p.lowRam := by unfold Platform.lowRamEnd; omega
      simp only [hlow, if_true, hstart, hend, and_true, Nat.not_le.2 hlow, false_and, or_false]
      omega
    · have hnotRam : ¬x < p.lowRamEnd := by omega
      simp only [hlow, if_false, hnotRam, and_false, or_false, Nat.le_of_not_lt hlow, true_and, false_or, or_and_left,
        Classical.em]
  simp only [Platform.meetsMemory, Bool.or_eq_true, rangesMeet_iff, any_meetsHigh_iff, hmemory]
  constructor
  · rintro (((⟨x, ha, hx⟩ | ⟨x, ha, hx⟩) | ⟨x, ha, hx, hr⟩) | ⟨x, ha, hx, hr⟩)
    · exact ⟨x, ha, .inl (.inl (by omega))⟩
    · exact ⟨x, ha, .inl (.inr (by omega))⟩
    · exact ⟨x, ha, .inr ⟨hx, .inl hr⟩⟩
    · exact ⟨x, ha, .inr ⟨hx, .inr hr⟩⟩
  · rintro ⟨x, ha, (hx | hx) | ⟨hx, hr | hr⟩⟩
    · exact .inl (.inl (.inl ⟨x, ha, by omega⟩))
    · exact .inl (.inl (.inr ⟨x, ha, by omega⟩))
    · exact .inl (.inr ⟨x, ha, hx, hr⟩)
    · exact .inr ⟨x, ha, hx, hr⟩

/-- A window meets another slot's where they have a byte in common (R526, U8). -/
theorem meetsOtherWindow_iff {c : Sbc} (hwf : sparseWf noWindow c.windows = true) (k : Nat) (w : Window) :
    meetsOtherWindow c.windows k w = true ↔
      ∃ x, (w.start ≤ x ∧ x < w.start + w.bytes) ∧
        ∃ j, j ≠ k ∧ (c.window j).start ≤ x ∧ x < (c.window j).start + (c.window j).bytes := by
  simp only [meetsOtherWindow, List.any_eq_true, Bool.and_eq_true, decide_eq_true_eq, rangesMeet_iff]
  constructor
  · rintro ⟨⟨j, v⟩, hmem, hne, x, hw, hv⟩
    have hwindow : c.window j = v := (sparseGet_of_mem hwf hmem).2
    exact ⟨x, hw, j, hne, hwindow ▸ hv⟩
  · rintro ⟨x, hw, j, hne, hv⟩
    have hset : c.window j ≠ noWindow := fun heq => noWindow_covers x (heq ▸ (covers_iff _ x).2 hv)
    exact ⟨(j, c.window j), mem_of_sparseGet_ne hset, hne, x, hw, hv⟩

theorem windowOverlaps_iff {s : State} (hwf : sparseWf noWindow s.sbc.windows = true) (k : Nat) (w : Window) :
    s.windowOverlaps k w = true ↔
      ∃ x, w.start ≤ x ∧ x < w.start + w.bytes ∧
        (s.platform.isRam x = true ∨ s.platform.isRom x = true ∨
          ∃ j, j ≠ k ∧ (s.sbc.window j).start ≤ x ∧ x < (s.sbc.window j).start + (s.sbc.window j).bytes) := by
  simp only [State.windowOverlaps, Bool.or_eq_true, meetsMemory_iff, meetsOtherWindow_iff hwf]
  rw [← exists_or]
  exact exists_congr fun x => by tauto

/-- The window that R2 and R3 ask for, by its numbers (R526). -/
theorem askedWindow_eq (s : State) :
    s.askedWindow =
        { base := BitVec.ofNat 28 (((s.reg 3).toNat * 65536 + (s.reg 2).toNat / 16 * 16) / 16)
          size := BitVec.ofNat 4 ((s.reg 2).toNat % 16) } ∧
      s.askedWindow.start = (s.reg 3).toNat * 65536 + (s.reg 2).toNat / 16 * 16 ∧
      s.askedWindow.bytes = if (s.reg 2).toNat % 16 = 0 then 0 else 2 ^ (11 + (s.reg 2).toNat % 16) := by
  have hbase : (s.reg 3 ++ (s.reg 2).extractLsb' 4 12).toNat = (s.reg 3).toNat * 4096 + (s.reg 2).toNat / 16 := by
    rw [toNat_append_eq_mul_add, toNat_extract]
    omega
  have hsize : ((s.reg 2).extractLsb' 0 4).toNat = (s.reg 2).toNat % 16 := by rw [toNat_extract]; omega
  have hzero : (s.reg 2).extractLsb' 0 4 = 0#4 ↔ (s.reg 2).toNat % 16 = 0 := by
    rw [← BitVec.toNat_inj, hsize]; rfl
  refine ⟨?_, ?_, ?_⟩
  · have hdiv : ((s.reg 3).toNat * 65536 + (s.reg 2).toNat / 16 * 16) / 16 =
        (s.reg 3).toNat * 4096 + (s.reg 2).toNat / 16 := by omega
    rw [hdiv, ← hbase, ← hsize, BitVec.ofNat_toNat, BitVec.ofNat_toNat, BitVec.setWidth_eq, BitVec.setWidth_eq]
    rfl
  · rw [Window.start, State.askedWindow, hbase]; omega
  · simp only [Window.bytes, State.askedWindow, hzero, hsize]

/-- BAR and size code as R2 and R3 show them (R525). -/
theorem window_words (w : Window) :
    w.base.extractLsb' 0 12 ++ w.size = BitVec.ofNat 16 (w.start % 65536 + w.size.toNat) ∧
      w.base.extractLsb' 12 16 = BitVec.ofNat 16 (w.start / 65536) := by
  have hlow : (w.base.extractLsb' 0 12).toNat = w.base.toNat % 4096 := by rw [toNat_extract]; omega
  have hhigh : (w.base.extractLsb' 12 16).toNat = w.base.toNat / 4096 := by rw [toNat_extract]; omega
  constructor
  · have hsum : (w.base.extractLsb' 0 12).toNat * 2 ^ 4 + w.size.toNat = w.start % 65536 + w.size.toNat := by
      rw [hlow, Window.start]; omega
    rw [append_eq_ofNat, hsum]
  · have hdiv : (w.base.extractLsb' 12 16).toNat = w.start / 65536 := by rw [hhigh, Window.start]; omega
    rw [← hdiv, BitVec.ofNat_toNat, BitVec.setWidth_eq]

theorem present_eq {p : Platform} {k : Nat} {info : Option SlotInfo} (h : p.slotInfo k = info) :
    p.present k = info.isSome := by
  rw [Platform.present, h]

/-- Settles O40: what is asked of the window, by its numbers, and what HWQ $11 answers. -/
theorem hwqWindows : Obligations.HwqWindows := by
  intro s info hmode hwf k size base bytes asked taken clash
  have hops := hwqOperations hmode
  obtain ⟨hasked, hstart, hbytes⟩ := askedWindow_eq s
  have hclash : s.windowOverlaps k s.askedWindow = true ↔ clash := by
    rw [windowOverlaps_iff hwf, hstart, hbytes]
  have hsize : asked.size = 0#4 ↔ size = 0 := by
    have hlt : size < 16 := Nat.mod_lt _ (by decide)
    rw [← BitVec.toNat_inj]
    simp only [asked, BitVec.toNat_ofNat]
    omega
  refine ⟨fun hnone => ⟨?_, ?_⟩, fun hsome => ⟨?_, fun hne hbad => ?_, fun hgood => ⟨fun h => ?_, fun h => ?_⟩⟩⟩
  · have hrejected : s.platform.windowAccepted s.slot s.askedWindow = false := by
      simp only [Platform.windowAccepted, show s.platform.slotInfo s.slot = none from hnone]
    rw [hops.writeWindow, State.hwqWriteWindow]
    simp only [hrejected, Bool.false_eq_true, if_false, msgError]
  · have habsent : s.platform.present s.slot = false := present_eq hnone
    rw [hops.readWindow, State.hwqReadWindow, habsent]
    exact ⟨_, _, rfl⟩
  · have hpresent : s.platform.present s.slot = true := present_eq hsome
    obtain ⟨hlow, hhigh⟩ := window_words (s.sbc.window s.slot)
    rw [hops.readWindow, State.hwqReadWindow, hpresent]
    simp only [if_true, hlow, hhigh, msgAck]
    rfl
  all_goals
    have haccepted : s.platform.windowAccepted s.slot s.askedWindow = true ↔
        size = 0 ∨ (BitVec.ofNat 4 size ∈ info.sizes ∧ base % bytes = 0) := by
      simp only [Platform.windowAccepted, show s.platform.slotInfo s.slot = some info from hsome, Bool.or_eq_true,
        decide_eq_true_eq, Bool.and_eq_true, List.contains_iff_mem, hstart, hbytes]
      rw [hasked, hsize]
    rw [hops.writeWindow, State.hwqWriteWindow]
    dsimp only
  · have hrejected : s.platform.windowAccepted s.slot s.askedWindow = false := by
      rw [← Bool.not_eq_true, haccepted]; tauto
    rw [hrejected]; rfl
  · rw [haccepted.2 hgood, show s.windowOverlaps s.slot s.askedWindow = true from hclash.2 h]; rfl
  · have hfree : s.windowOverlaps s.slot s.askedWindow = false := by
      rw [← Bool.not_eq_true]; exact mt hclash.1 h
    rw [haccepted.2 hgood, hfree]
    refine ⟨_, rfl, fun j => ?_⟩
    rw [sparseGet_set noWindow _ _ _ _ hwf, hasked]
    rfl

/-! ## Interrupt configurations, clock and NVRAM -/

/-- Settles O41: R2[15:4] is zero where R2 is below 16. -/
theorem hwqInterrupts : Obligations.HwqInterrupts := by
  intro s hmode hwf k
  have hops := hwqOperations hmode
  have hreserved : (s.reg 2).extractLsb' 4 12 = 0#12 ↔ (s.reg 2).toNat < 16 := by
    rw [← BitVec.toNat_inj, toNat_extract]
    simp only [BitVec.toNat_ofNat]
    omega
  have hwrite : exec (.hwq 0x13) s = .next (if s.platform.present k ∧ (s.reg 2).toNat < 16 then
      { s with sbc := { s.sbc with configs := sparseSet 0#4 s.sbc.configs k (BitVec.ofNat 4 (s.reg 2).toNat) } }.setReg 1
        0x0001#16
      else s.setReg 1 0xFFFF#16) := by
    rw [hops.writeConfig, State.hwqWriteConfig]
    simp only [Bool.and_eq_true, decide_eq_true_eq, hreserved]
    rfl
  refine ⟨fun habsent => ⟨?_, ?_⟩, fun hpresent => ⟨?_, fun h => ?_,
    fun h => ⟨sparseSet 0#4 s.sbc.configs k (BitVec.ofNat 4 (s.reg 2).toNat), ?_, fun j => ?_⟩⟩⟩
  · rw [hops.readConfig, State.hwqReadConfig, State.slot, habsent]; rfl
  · rw [hwrite, habsent]; rfl
  · rw [hops.readConfig, State.hwqReadConfig, State.slot, hpresent, if_pos rfl, BitVec.ofNat_toNat]
  · rw [hwrite, if_neg fun hand => Nat.not_lt.2 h hand.2]
  · rw [hwrite, if_pos ⟨hpresent, h⟩]; rfl
  · exact sparseGet_set 0#4 s.sbc.configs k j _ hwf

/-- The three words of the time (R536), by their numbers. -/
theorem rtc_words (t : RtcTime) :
    t.word0 = BitVec.ofNat 16 (t.year.toNat * 256 + t.month.val) ∧
      t.word1 = BitVec.ofNat 16 (t.day.val * 256 + t.hour.val) ∧
      t.word2 = BitVec.ofNat 16 (t.minute.val * 256 + t.second.val) := by
  have hmonth := t.month.isLt
  have hday := t.day.isLt
  have hhour := t.hour.isLt
  have hminute := t.minute.isLt
  have hsecond := t.second.isLt
  have hyear := t.year.isLt
  refine ⟨?_, ?_, ?_⟩
  · apply BitVec.eq_of_toNat_eq
    rw [RtcTime.word0]
    iterate 2 rw [toNat_append_eq_mul_add]
    simp only [BitVec.toNat_ofNat]
    omega
  · apply BitVec.eq_of_toNat_eq
    rw [RtcTime.word1]
    iterate 3 rw [toNat_append_eq_mul_add]
    simp only [BitVec.toNat_ofNat]
    omega
  · apply BitVec.eq_of_toNat_eq
    rw [RtcTime.word2]
    iterate 3 rw [toNat_append_eq_mul_add]
    simp only [BitVec.toNat_ofNat]
    omega

/-- Settles O42: the clock's words, or three draws. -/
theorem hwqClock : Obligations.HwqClock := by
  intro s hmode t
  have hops := hwqOperations hmode
  obtain ⟨hword0, hword1, hword2⟩ := rtc_words t
  refine ⟨fun hpresent => ?_, fun habsent => ?_⟩
  · rw [hops.clock, State.hwqClock, hpresent, ← hword0, ← hword1, ← hword2]; rfl
  · rw [hops.clock, State.hwqClock, habsent]
    exact ⟨_, _, _, rfl⟩

theorem nvramOffset_eq (s : State) : s.nvramOffset = (s.reg 3).toNat * 65536 + (s.reg 2).toNat :=
  toNat_append_eq_mul_add (s.reg 3) (s.reg 2)

/-- Settles O43: whether the NVRAM has the byte, and what the environment allows, decide. -/
theorem hwqNvram : Obligations.HwqNvram := by
  intro s hmode hwf off
  have hops := hwqOperations hmode
  have hoff : s.nvramOffset = off := nvramOffset_eq s
  refine ⟨fun hnone => ?_, fun bytes hbytes => ?_⟩
  · have hlacks : s.nvramHas = false := by rw [State.nvramHas, hnone]
    refine ⟨?_, ?_, ?_⟩
    · rw [hops.nvramSize, State.hwqNvramSize, hnone]
      exact ⟨_, _, rfl⟩
    · rw [hops.nvramWrite, State.hwqNvramWrite, hlacks]; rfl
    · rw [hops.nvramRead, State.hwqNvramRead, hlacks]
      exact ⟨_, rfl⟩
  · have hhas : s.nvramHas = decide (off < bytes.toNat) := by rw [State.nvramHas, hbytes, hoff]
    refine ⟨?_, fun h => ?_,
      fun hlt hprotected hfailing =>
        ⟨s.sbc.nvram.write off (BitVec.ofNat 8 (s.reg 0).toNat), ?_, fun a => Memory.read_write _ _ a _ hwf⟩,
      fun hle => ?_, fun hlt => ?_⟩
    · rw [hops.nvramSize, State.hwqNvramSize, hbytes]; rfl
    · have hrefused : (s.nvramHas && !s.sbc.nvramProtected && !s.sbc.nvramFailing) = false := by
        rw [hhas]
        rcases h with h | h | h <;> simp [h]
      rw [hops.nvramWrite, State.hwqNvramWrite, hrefused]; rfl
    · rw [hops.nvramWrite, State.hwqNvramWrite, hhas, decide_eq_true hlt, hprotected, hfailing, hoff]; rfl
    · rw [hops.nvramRead, State.hwqNvramRead, hhas, decide_eq_false (Nat.not_lt.2 hle)]
      exact ⟨_, rfl⟩
    · rw [hops.nvramRead, State.hwqNvramRead, hhas, decide_eq_true hlt, if_pos rfl, hoff, zeroExtendByte,
        BitVec.ofNat_toNat]
      rfl

end Sys2Proof.Proofs
end

section
/-! PROOFS. Jumps, branches and subroutines; NOP, the flags and SLP; the special registers; and the user page table entries
that PTL and PTS move. -/

namespace Sys2Proof.Proofs

open Sys2Proof.Machine Sys2Proof.Laws

/-! ## Jumps, branches and the stack pointer -/

/-- A branch by the number of its offset (R389). -/
theorem branchIf_eq {n : Nat} (s : State) (c : Bool) (i : BitVec n) :
    s.branchIf c i = { s with pc := if c then s.pc + BitVec.ofInt 16 (2 * i.toInt) else s.pc } := by
  rw [← wordOffset_eq]
  cases c <;> rfl

/-- Settles O29: each branch is one conditional move of PC; STX moves the stack pointer of the mode. -/
theorem jumpBranch : Obligations.JumpBranch := by
  intro s m imm far adj branches
  have hbranch : ∀ (i : Instr) (code : BitVec 3) (taken : Bool), encode i = 0b0110#4 ++ code ++ imm →
      exec i s = .next (s.branchIf taken imm) → branches i code taken := by
    intro i code taken hword hexec
    refine ⟨hword ▸ decode_encode i, ?_⟩
    rw [hexec, branchIf_eq]
  have hfar : exec (.bra far) s = .next (s.branchIf true far) := rfl
  have hstx : exec (.stx adj) s = .next (s.setSp (s.sp + wordOffset adj)) := rfl
  refine ⟨hbranch _ _ _ rfl rfl, hbranch _ _ _ rfl rfl, hbranch _ _ _ rfl rfl, hbranch _ _ _ rfl rfl,
    hbranch _ _ _ rfl rfl, hbranch _ _ _ rfl rfl, hbranch _ _ _ rfl rfl, hbranch _ _ _ rfl rfl,
    decode_encode (.bra far), decode_encode (.jmp m), decode_encode (.stx adj), ?_, rfl, fun hmode => ?_, fun hmode => ?_⟩
  · rw [hfar, branchIf_eq, if_pos rfl]
  · rw [hstx, wordOffset_eq, setSp_of_user _ hmode, sp_of_user hmode]
  · rw [hstx, wordOffset_eq, setSp_of_supervisor _ hmode, sp_of_supervisor hmode]

theorem setSp_with_draws (s : State) (v : Word) (n : Nat) :
    { s with draws := n }.setSp v = { s.setSp v with draws := n } := by
  cases h : s.ps.mode <;> simp only [State.setSp, h]

/-- JSR is one write below SP, RTS one read at SP; the stack pointer and PC follow the access. -/
theorem exec_jsr (s : State) (m : Reg) :
    exec (.jsr m) s = .next ((s.writeWordAs s.ps.mode (s.sp - 2#16) s.pc).bind fun _ t =>
      .done () { t.setSp (s.sp - 2#16) with pc := s.reg m }).settle := by
  change Host.Outcome.next ((s.pushWords s.ps.mode s.sp [s.pc]).bind _).settle = _
  rw [pushWords_cons]
  cases s.writeWordAs s.ps.mode (s.sp - 2#16) s.pc <;> rfl

/-- Settles O30: each is one access, with its traps and its completion. -/
theorem callReturn : Obligations.CallReturn := by
  intro s m p ea
  have hjsr := exec_jsr s m
  have hrts : exec .rts s = .next ((s.readWordAs p .read s.sp).bind fun v t =>
      .done () { t.setSp (s.sp + 2#16) with pc := v }).settle := rfl
  obtain ⟨hjsrOdd, hjsrDenied⟩ := traps_of_exec hjsr (writeWordAs_of_odd p s.pc) (writeWordAs_of_denies s.pc)
  obtain ⟨hrtsOdd, hrtsDenied⟩ := traps_of_exec hrts (readWordAs_of_odd p .read) readWordAs_of_denies
  refine ⟨decode_encode (.jsr m), decode_encode .rts, hjsrOdd, hjsrDenied, fun heven hallows => ⟨?_, ?_, ?_⟩, hrtsOdd,
    hrtsDenied, fun heven hallows => ?_⟩
  · rw [hjsr, writeWordAs_of_allows s.pc heven hallows]; rfl
  · exact stored_sameBytesOutside (physWrite2_sameBytesOutside _ _ s.pc)
  · intro hwf hram
    refine wordAt_physWrite2 s.pc (touched_wf p .write ea hwf) ?_
    simpa only [State.ramWord, touched_kindAt] using hram
  · obtain ⟨v, n, hown, hread⟩ := readWordAs_some heven hallows
    refine ⟨v, n, hown, ?_⟩
    rw [hrts, hread, bind_done, settle_done, setSp_with_draws]

/-! ## NOP, the flags and SLP -/

/-- Settles O31. -/
theorem flagsNopSleep : Obligations.FlagsNopSleep := by
  intro s function
  refine ⟨decode_encode .nop, decode_encode .sfv, decode_encode .cfv, decode_encode .sfc, decode_encode .cfc,
    decode_encode .sfz, decode_encode .cfz, decode_encode .sfn, decode_encode .cfn, decode_encode .slp, rfl, rfl, rfl, rfl,
    rfl, rfl, rfl, rfl, rfl,
    fun hmode => exec_of_supervisor (x := .done () { s with asleep := true }) rfl hmode,
    fun hmode => exec_of_user rfl hmode⟩

/-! ## Which special register an index names -/

theorem checkSpecial_unnamed {s : State} {idx : BitVec 5} (d : Reg) (h : 0x0D ≤ idx.toNat) :
    s.checkSpecial idx d = .error .undef := by
  have hnone : Special.ofIndex? idx = none := by
    unfold Special.ofIndex?
    split
    case h_14 => rfl
    all_goals omega
  rw [State.checkSpecial, hnone]

/-- The registers of index $00 to $0C: those from $03 up are privileged, those from $08 up have 32 bits (R56, R57). -/
theorem ofIndex?_named : ∀ idx : BitVec 5, idx.toNat ≤ 0x0C →
    ∃ r, Special.ofIndex? idx = some r ∧ r.privileged = decide (0x03 ≤ idx.toNat) ∧
      r.wide = decide (0x08 ≤ idx.toNat) := by
  decide

theorem checkSpecial_privileged {s : State} {idx : BitVec 5} (d : Reg) (hmode : s.ps.mode = .user)
    (hlow : 0x03 ≤ idx.toNat) (hhigh : idx.toNat ≤ 0x0C) : s.checkSpecial idx d = .error .unpriv := by
  obtain ⟨r, hr, hprivileged, -⟩ := ofIndex?_named idx hhigh
  simp only [State.checkSpecial, hr, inUser_of_user hmode, hprivileged, hlow, decide_true, Bool.and_self, if_true]

theorem checkSpecial_odd {s : State} {idx : BitVec 5} {d : Reg} (hmode : s.ps.mode = .supervisor)
    (hlow : 0x08 ≤ idx.toNat) (hhigh : idx.toNat ≤ 0x0C) (hodd : d.getLsbD 0 = true) :
    s.checkSpecial idx d = .error .undef := by
  obtain ⟨r, hr, -, hwide⟩ := ofIndex?_named idx hhigh
  simp only [State.checkSpecial, hr, inUser_of_supervisor hmode, hwide, hlow, hodd, decide_true, Bool.and_self,
    Bool.false_and, Bool.false_eq_true, if_false, if_true]

/-- Where a named register may be moved: not privileged or in supervisor mode, and an even Rd for 32 bits (R401, R57). -/
theorem checkSpecial_ok {s : State} {idx : BitVec 5} {d : Reg} {r : Special} (hr : Special.ofIndex? idx = some r)
    (hprivileged : r.privileged = false ∨ s.ps.mode = .supervisor) (hwide : r.wide = false ∨ d.getLsbD 0 = false) :
    s.checkSpecial idx d = .ok r := by
  have hallowed : (s.inUser && r.privileged) = false := by
    rcases hprivileged with h | h
    · rw [h, Bool.and_false]
    · rw [inUser_of_supervisor h, Bool.false_and]
  have heven : (r.wide && d.getLsbD 0) = false := by
    rcases hwide with h | h
    · rw [h, Bool.false_and]
    · rw [h, Bool.and_false]
  simp only [State.checkSpecial, hr, hallowed, heven, Bool.false_eq_true, if_false]

theorem exec_mrs_error {s : State} {idx : BitVec 5} {d : Reg} {e : FaultCause} (h : s.checkSpecial idx d = .error e) :
    exec (.mrs d idx) s = .next (s.raiseFault e) := by
  simp only [exec, execMrs, h]

theorem exec_msr_error {s : State} {idx : BitVec 5} {d : Reg} {e : FaultCause} (h : s.checkSpecial idx d = .error e) :
    exec (.msr d idx) s = .next (s.raiseFault e) := by
  simp only [exec, execMsr, h]

/-- Settles O34: both instructions make the same check. -/
theorem specialTraps : Obligations.SpecialTraps := by
  intro s d idx both
  have hboth : ∀ e, s.checkSpecial idx d = .error e → both e := fun e h => ⟨exec_mrs_error h, exec_msr_error h⟩
  exact ⟨fun h => hboth _ (checkSpecial_unnamed d h),
    fun hmode hlow hhigh => hboth _ (checkSpecial_privileged d hmode hlow hhigh),
    fun hmode hlow hhigh hodd => hboth _ (checkSpecial_odd hmode hlow hhigh hodd)⟩

/-! ## MRS and MSR of every special register -/

theorem exec_mrs_narrow {s : State} {idx : BitVec 5} {r : Special} (d : Reg) (hr : Special.ofIndex? idx = some r)
    (hnarrow : r.wide = false) (hprivileged : r.privileged = false ∨ s.ps.mode = .supervisor) :
    exec (.mrs d idx) s = .next (s.setReg d ((s.special r).setWidth 16)) := by
  simp only [exec, execMrs, checkSpecial_ok hr hprivileged (.inl hnarrow), hnarrow, Bool.false_eq_true, if_false]

/-- The pair of an even register (R57). -/
theorem pairOf_even : ∀ d : Reg, d.getLsbD 0 = false → pairLo (pairOf d) = d ∧ pairHi (pairOf d) = d + 1#3 := by
  decide

theorem exec_mrs_wide {s : State} {idx : BitVec 5} {r : Special} {d : Reg} (hr : Special.ofIndex? idx = some r)
    (hwide : r.wide = true) (hmode : s.ps.mode = .supervisor) (heven : d.getLsbD 0 = false) :
    exec (.mrs d idx) s =
      .next ((s.setReg d ((s.special r).extractLsb' 0 16)).setReg (d + 1#3) ((s.special r).extractLsb' 16 16)) := by
  obtain ⟨hlo, hhi⟩ := pairOf_even d heven
  simp only [exec, execMrs, checkSpecial_ok hr (.inr hmode) (.inr heven), hwide, if_true, State.setPair, hlo, hhi]

/-- PS as a word by its fields (R38). -/
theorem status_toNat (p : Status) :
    p.toWord.toNat =
      (if p.mode = .supervisor then 2 ^ 14 else 0) + (if p.mmu then 2 ^ 13 else 0) + (if p.ie then 2 ^ 12 else 0)
        + 16 * p.level.toNat + (if p.n then 2 ^ 3 else 0) + (if p.z then 2 ^ 2 else 0) + (if p.c then 2 ^ 1 else 0)
        + (if p.v then 2 ^ 0 else 0) := by
  have hbit : ∀ b : Bool, (BitVec.ofBool b).toNat = if b then 1 else 0 := by decide
  have hmode : p.mode.bits.toNat = if p.mode = .supervisor then 1 else 0 := by cases p.mode <;> rfl
  rw [Status.toWord]
  iterate 8 rw [toNat_append_eq_mul_add]
  simp only [hbit, hmode, BitVec.toNat_ofNat]
  split_ifs <;> omega

theorem intMask_toWord (m : IntMask) :
    m.toWord = BitVec.ofNat 16 ((if m.hardware then 2 else 0) + (if m.clock then 1 else 0)) := by
  obtain ⟨hardware, clock⟩ := m
  revert hardware clock
  decide

/-- Settles O32: one lemma for a register of 16 bits and one for a register of 32, at each index. -/
theorem readSpecial : Obligations.ReadSpecial := by
  intro s d idx bit bits pairs
  have hnarrow : ∀ (i : BitVec 5) (r : Special) (v : Word), Special.ofIndex? i = some r → r.wide = false →
      (r.privileged = false ∨ s.ps.mode = .supervisor) → s.special r = v.setWidth 32 →
      exec (.mrs d i) s = .next (s.setReg d v) := by
    intro i r v hr hwide hprivileged hvalue
    rw [exec_mrs_narrow d hr hwide hprivileged, hvalue, BitVec.setWidth_setWidth_of_le _ (by decide),
      BitVec.setWidth_eq]
  have hps : s.ps.toWord.toNat =
      bit (decide (s.ps.mode = .supervisor)) 14 + bit s.ps.mmu 13 + bit s.ps.ie 12 + 16 * s.ps.level.toNat + bit s.ps.n 3
        + bit s.ps.z 2 + bit s.ps.c 1 + bit s.ps.v 0 := by
    simpa only [bit, decide_eq_true_eq] using status_toNat s.ps
  refine ⟨decode_encode (.mrs d idx), fun e v => reg_setReg s d e v, fun v => rfl, hps,
    hnarrow 0x00 .pc _ rfl rfl (.inl rfl) rfl, hnarrow 0x02 .su _ rfl rfl (.inl rfl) rfl, fun hmode => ?_,
    fun hmode => ⟨?_, hnarrow 0x03 .ss _ rfl rfl (.inr hmode) rfl, hnarrow 0x04 .vb _ rfl rfl (.inr hmode) rfl, ?_,
      hnarrow 0x06 .ic _ rfl rfl (.inr hmode) rfl, hnarrow 0x07 .fa _ rfl rfl (.inr hmode) rfl,
      exec_mrs_wide (r := .tu) rfl rfl hmode, exec_mrs_wide (r := .ts) rfl rfl hmode, exec_mrs_wide (r := .cl) rfl rfl hmode,
      exec_mrs_wide (r := .cc) rfl rfl hmode, exec_mrs_wide (r := .pf) rfl rfl hmode⟩⟩
  · refine hnarrow 0x01 .ps _ rfl rfl (.inl rfl) ?_
    rw [State.special, readable_eq, decide_eq_true hmode, if_pos rfl]
  · refine hnarrow 0x01 .ps _ rfl rfl (.inl rfl) ?_
    rw [State.special, readable_eq, if_neg (by simp [hmode])]
  · refine hnarrow 0x05 .im _ rfl rfl (.inr hmode) ?_
    rw [State.special, intMask_toWord]

theorem exec_msr_ok {s : State} {idx : BitVec 5} {r : Special} {d : Reg} (hr : Special.ofIndex? idx = some r)
    (hprivileged : r.privileged = false ∨ s.ps.mode = .supervisor) (hwide : r.wide = false ∨ d.getLsbD 0 = false) :
    exec (.msr d idx) s = s.writeSpecial r (s.reg d) (s.pair (pairOf d)) := by
  simp only [exec, execMsr, checkSpecial_ok hr hprivileged hwide]

/-- Settles O33: one write at each index; for PS, what the mode may write of it. -/
theorem writeSpecial : Obligations.WriteSpecial := by
  intro s d idx v w
  have hps : exec (.msr d 0x01) s = s.writeSpecial .ps v (s.pair (pairOf d)) := exec_msr_ok rfl (.inl rfl) (.inl rfl)
  have hwritten : ∀ p, s.ps.write? v = some p → exec (.msr d 0x01) s = .next { s with ps := p } := by
    intro p hp
    rw [hps, State.writeSpecial, hp]
  refine ⟨decode_encode (.msr d idx), exec_msr_ok (r := .pc) rfl (.inl rfl) (.inl rfl),
    exec_msr_ok (r := .su) rfl (.inl rfl) (.inl rfl), fun hmode => ?_,
    fun hmode => ⟨fun hreserved => ?_, fun hdefined => ?_, exec_msr_ok (r := .ss) rfl (.inr hmode) (.inl rfl),
      exec_msr_ok (r := .vb) rfl (.inr hmode) (.inl rfl), exec_msr_ok (r := .im) rfl (.inr hmode) (.inl rfl),
      exec_msr_ok (r := .ic) rfl (.inr hmode) (.inl rfl), exec_msr_ok (r := .fa) rfl (.inr hmode) (.inl rfl),
      fun heven => ?_⟩⟩
  · obtain ⟨p, hp, -, huser⟩ := write?_of_defined (p := s.ps) (w := v) (.inl hmode)
    exact ⟨p, huser hmode, hwritten p hp⟩
  · rw [hps, State.writeSpecial, write?_of_reserved (by simp [hmode]) hreserved]
  · obtain ⟨p, hp, hsupervisor, -⟩ := write?_of_defined (p := s.ps) (.inr hdefined)
    exact ⟨p, hsupervisor (by simp [hmode]), hwritten p hp⟩
  · have hpair : s.pair (pairOf d) = w := by
      obtain ⟨hlo, hhi⟩ := pairOf_even d heven
      rw [State.pair, hlo, hhi]
    rw [← hpair]
    exact ⟨exec_msr_ok (r := .tu) rfl (.inr hmode) (.inr heven), exec_msr_ok (r := .ts) rfl (.inr hmode) (.inr heven),
      exec_msr_ok (r := .cl) rfl (.inr hmode) (.inr heven), exec_msr_ok (r := .cc) rfl (.inr hmode) (.inr heven),
      exec_msr_ok (r := .pf) rfl (.inr hmode) (.inr heven)⟩

/-! ## User page table entries -/

/-- The address of a table's entry by its index (R123). -/
theorem entryAddress_toNat (base : DWord) (idx : BitVec 4) :
    entryAddress base idx = (base &&& 0xFFFFFFC0#32) + BitVec.ofNat 32 (4 * idx.toNat) := by
  have hentry : (entryAddress base idx).toNat = ((base.extractLsb' 6 26).toNat * 16 + idx.toNat) * 4 := by
    rw [entryAddress, toNat_append_eq_mul_add, toNat_append_eq_mul_add]
    rfl
  have hmask : (base &&& 0xFFFFFFC0#32).toNat = base.toNat / 64 * 64 := toNat_and_high (m := 26) (n := 6) base
  apply BitVec.eq_of_toNat_eq
  rw [hentry, BitVec.toNat_add, hmask, toNat_extract]
  simp only [BitVec.toNat_ofNat]
  omega

/-- TU has the implemented format (R121). -/
theorem userTable_iff (s : State) : s.tu &&& 3#32 = 0#32 ↔ s.tu.extractLsb' 0 2 = 0#2 := by
  rw [← show s.tableRegister .user = s.tu from rfl, ← tableFormatOk_iff, State.tableFormatOk, decide_eq_true_eq]

theorem entryIndex_byAddress (x : Word) : ∃ idx, entryIndex false x = some idx ∧ idx.toNat = x.toNat / 4096 := by
  refine ⟨x.extractLsb' 12 4, rfl, ?_⟩
  rw [toNat_extract]
  omega

theorem entryIndex_byIndex {x : Word} (h : x.toNat ≤ 15) :
    ∃ idx, entryIndex true x = some idx ∧ idx.toNat = x.toNat := by
  refine ⟨x.extractLsb' 0 4, by rw [entryIndex, if_pos rfl, if_pos h], ?_⟩
  rw [toNat_extract]
  omega

section UserEntry

variable {s : State} {byIndex : Bool} {x : Word} {idx : BitVec 4}

theorem userEntry_of_index (htable : s.tu &&& 3#32 = 0#32) (h : entryIndex byIndex x = some idx) :
    s.userEntry byIndex x = .done ((s.tu &&& 0xFFFFFFC0#32) + BitVec.ofNat 32 (4 * idx.toNat)) s := by
  rw [State.userEntry, if_pos ((userTable_iff s).1 htable), h, ← entryAddress_toNat]

theorem userEntry_of_badTable (byIndex : Bool) (x : Word) (h : s.tu &&& 3#32 ≠ 0#32) :
    s.userEntry byIndex x = .abort (.page 0x0020#16 x) s := by
  rw [State.userEntry, if_neg (mt (userTable_iff s).2 h)]

theorem userEntry_of_badIndex (htable : s.tu &&& 3#32 = 0#32) (h : 15 < x.toNat) :
    s.userEntry true x = .abort (.page 0x0000#16 x) s := by
  have hnone : entryIndex true x = none := by rw [entryIndex, if_pos rfl, if_neg (Nat.not_le.2 h)]
  rw [State.userEntry, if_pos ((userTable_iff s).1 htable), hnone]

end UserEntry

/-- A read of four physical bytes leaves the state alone, but for the draw counter. -/
theorem physRead4_state (s : State) (a : DWord) : ∃ n, (s.physRead4 a).2 = { s with draws := n } := by
  obtain ⟨m, hlow⟩ := physRead2_state s a
  obtain ⟨n, hhigh⟩ := physRead2_state (s.physRead2 a).2 (a + 2#32)
  refine ⟨n, ?_⟩
  calc (s.physRead4 a).2 = ((s.physRead2 a).2.physRead2 (a + 2#32)).2 := rfl
    _ = { (s.physRead2 a).2 with draws := n } := hhigh
    _ = { s with draws := n } := by rw [hlow]

theorem physRead4_some (s : State) (a : DWord) :
    ∃ (v : DWord) (n : Nat), (s.ownDWord a = true → v = s.dwordAt a ∧ n = s.draws) ∧
      s.physRead4 a = (v, { s with draws := n }) := by
  cases hown : s.ownDWord a with
  | true => exact ⟨_, s.draws, fun _ => ⟨rfl, rfl⟩, physRead4_own s a hown⟩
  | false =>
    obtain ⟨n, hstate⟩ := physRead4_state s a
    exact ⟨(s.physRead4 a).1, n, nofun, Prod.ext rfl hstate⟩

/-- Settles O35: the entry's address by the index, then one read or one write of four bytes. -/
theorem tableEntryAccess : Obligations.TableEntryAccess := by
  intro s p m entry loads stores
  have hpair : (pairLo p).toNat = 2 * p.toNat ∧ (pairHi p).toNat = 2 * p.toNat + 1 := by revert p; decide
  refine ⟨hpair, decode_encode (.ptlV p m), decode_encode (.ptlI p m), decode_encode (.ptsV p m),
    decode_encode (.ptsI p m), fun hmode htable => ?_⟩
  have hloads : ∀ (i : Instr) (byIndex : Bool) (idx : BitVec 4), entryIndex byIndex (s.reg m) = some idx →
      exec i s = .next (s.loadEntry byIndex p m).settle → loads i idx.toNat := by
    intro i byIndex idx hidx hexec
    obtain ⟨v, n, hown, hread⟩ := physRead4_some s (entry idx.toNat)
    refine ⟨v, n, hown, ?_⟩
    rw [hexec, State.loadEntry, ifSupervisor_of_supervisor _ hmode, userEntry_of_index htable hidx, bind_done, hread]
    rfl
  have hstores : ∀ (i : Instr) (byIndex : Bool) (idx : BitVec 4), entryIndex byIndex (s.reg m) = some idx →
      exec i s = .next (s.storeEntry byIndex p m).settle → stores i idx.toNat := by
    intro i byIndex idx hidx hexec
    refine ⟨?_, physWrite4_sameBytesOutside s _ _⟩
    rw [hexec, State.storeEntry, ifSupervisor_of_supervisor _ hmode, userEntry_of_index htable hidx]
    rfl
  obtain ⟨idx, hidx, hnumber⟩ := entryIndex_byAddress (s.reg m)
  refine ⟨hnumber ▸ hloads _ _ idx hidx rfl, hnumber ▸ hstores _ _ idx hidx rfl, fun hle => ?_⟩
  obtain ⟨idx, hidx, hnumber⟩ := entryIndex_byIndex hle
  exact ⟨hnumber ▸ hloads _ _ idx hidx rfl, hnumber ▸ hstores _ _ idx hidx rfl⟩

/-- Settles O36: the format of TU is looked at before the index. -/
theorem tableEntryTraps : Obligations.TableEntryTraps := by
  intro s p m hmode
  have htraps : ∀ (byIndex : Bool) (e : FaultCause), s.userEntry byIndex (s.reg m) = .abort e s →
      (s.loadEntry byIndex p m).settle = s.raiseFault e ∧ (s.storeEntry byIndex p m).settle = s.raiseFault e := by
    intro byIndex e he
    rw [State.loadEntry, State.storeEntry, ifSupervisor_of_supervisor _ hmode, ifSupervisor_of_supervisor _ hmode, he]
    exact ⟨rfl, rfl⟩
  simp only [List.forall_mem_cons, List.not_mem_nil, false_implies, implies_true, and_true]
  refine ⟨fun hbad => ?_, fun htable hindex => ?_⟩
  · obtain ⟨hloadV, hstoreV⟩ := htraps false _ (userEntry_of_badTable false _ hbad)
    obtain ⟨hloadI, hstoreI⟩ := htraps true _ (userEntry_of_badTable true _ hbad)
    exact ⟨congrArg Host.Outcome.next hloadV, congrArg Host.Outcome.next hloadI, congrArg Host.Outcome.next hstoreV,
      congrArg Host.Outcome.next hstoreI⟩
  · obtain ⟨hload, hstore⟩ := htraps true _ (userEntry_of_badIndex htable hindex)
    exact ⟨congrArg Host.Outcome.next hload, congrArg Host.Outcome.next hstore⟩

end Sys2Proof.Proofs
end
